-- ==== Sys2Proof/Word.lean ====
section
/-! DEFINITION. The two word types of the core (spec/00_scope.md R7, R8): a word is a value in [0, 2^32), a byte a value in
[0, 256). The operators of R10 and R11 are those of BitVec; rotr and shr stand in Machine/Bits.lean. -/

namespace Sys2Proof

/-- A 32-bit word; bit i has weight 2^i (R7). -/
abbrev Word := BitVec 32

/-- A byte (R8). -/
abbrev Byte := BitVec 8

end Sys2Proof
end

