-- ==== Sys2Proof/Machine/Bits.lean ====
section
/-! DEFINITION. The word operators of spec/00_scope.md R12, R13 and the big-endian byte lanes of spec/20_memory.md R84. -/

namespace Sys2Proof.Machine

/-- Rotate right, for 1 <= n <= 31 (R12). -/
def rotr (x : Word) (n : Nat) : Word := (x >>> n) ||| (x <<< (32 - n))

/-- Logical shift right, for 1 <= n <= 31 (R13). -/
def shr (x : Word) (n : Nat) : Word := x >>> n

/-- The word whose lanes are the given bytes, the byte at the lowest address in bits 31:24 (R84). -/
def joinBytes (b0 b1 b2 b3 : Byte) : Word := b0 ++ b1 ++ b2 ++ b3

/-- The byte in lane i of a word: lane 0 is bits 31:24, lane 3 is bits 7:0 (R84). -/
def laneByte (v : Word) (i : Nat) : Byte := (v >>> (24 - 8 * (i % 4))).setWidth 8

end Sys2Proof.Machine
end

