-- ==== Sys2Proof/Machine/Rom.lean ====
section
/-! DEFINITION. The constant stores of spec/10_state.md: the K ROM (R41) and the initialization vector (R42). Nothing writes
them and the host cannot address them (spec/20_memory.md R93). -/

namespace Sys2Proof.Machine

/-- K[0..63], the table of R41. -/
def kTable : List Word :=
  [
    0x428A_2F98#32, 0x7137_4491#32, 0xB5C0_FBCF#32, 0xE9B5_DBA5#32,
    0x3956_C25B#32, 0x59F1_11F1#32, 0x923F_82A4#32, 0xAB1C_5ED5#32,
    0xD807_AA98#32, 0x1283_5B01#32, 0x2431_85BE#32, 0x550C_7DC3#32,
    0x72BE_5D74#32, 0x80DE_B1FE#32, 0x9BDC_06A7#32, 0xC19B_F174#32 ] ++
  [
    0xE49B_69C1#32, 0xEFBE_4786#32, 0x0FC1_9DC6#32, 0x240C_A1CC#32,
    0x2DE9_2C6F#32, 0x4A74_84AA#32, 0x5CB0_A9DC#32, 0x76F9_88DA#32,
    0x983E_5152#32, 0xA831_C66D#32, 0xB003_27C8#32, 0xBF59_7FC7#32,
    0xC6E0_0BF3#32, 0xD5A7_9147#32, 0x06CA_6351#32, 0x1429_2967#32 ] ++
  [
    0x27B7_0A85#32, 0x2E1B_2138#32, 0x4D2C_6DFC#32, 0x5338_0D13#32,
    0x650A_7354#32, 0x766A_0ABB#32, 0x81C2_C92E#32, 0x9272_2C85#32,
    0xA2BF_E8A1#32, 0xA81A_664B#32, 0xC24B_8B70#32, 0xC76C_51A3#32,
    0xD192_E819#32, 0xD699_0624#32, 0xF40E_3585#32, 0x106A_A070#32 ] ++
  [
    0x19A4_C116#32, 0x1E37_6C08#32, 0x2748_774C#32, 0x34B0_BCB5#32,
    0x391C_0CB3#32, 0x4ED8_AA4A#32, 0x5B9C_CA4F#32, 0x682E_6FF3#32,
    0x748F_82EE#32, 0x78A5_636F#32, 0x84C8_7814#32, 0x8CC7_0208#32,
    0x90BE_FFFA#32, 0xA450_6CEB#32, 0xBEF9_A3F7#32, 0xC671_78F2#32 ]

/-- The ROM word that round t reads (R41). The table has 64 entries, so the default is never taken. -/
def kWord (t : BitVec 6) : Word := kTable.getD t.toNat 0#32

/-- The first 64 primes, p_0 = 2 (R41). -/
def primes : List Nat :=
  [2, 3, 5, 7, 11, 13, 17, 19, 23, 29, 31, 37, 41, 43, 47, 53] ++
  [59, 61, 67, 71, 73, 79, 83, 89, 97, 101, 103, 107, 109, 113, 127, 131] ++
  [137, 139, 149, 151, 157, 163, 167, 173, 179, 181, 191, 193, 197, 199, 211, 223] ++
  [227, 229, 233, 239, 241, 251, 257, 263, 269, 271, 277, 281, 283, 293, 307, 311]

/-- IV[0..7], the table of R42. -/
def ivTable : Vector Word 8 :=
  #v[0x6A09_E667#32, 0xBB67_AE85#32, 0x3C6E_F372#32, 0xA54F_F53A#32,
     0x510E_527F#32, 0x9B05_688C#32, 0x1F83_D9AB#32, 0x5BE0_CD19#32]

end Sys2Proof.Machine
end

