-- ==== Sys2Proof/Config.lean ====
section
/-! DEFINITION. What an instance of the core fixes, and the model's one free value. The capacity MSG_BYTES is a named
parameter of the spec (spec/00_scope.md R6, spec/92_eei_decisions.md D29): it is carried in State (`msgBytes`), so that every
statement about a state holds for every capacity; only the state after reset needs a number. -/

namespace Sys2Proof

/-- The capacity in `State.reset`, in bytes. DESIGN CHOICE (log entry 1): the spec leaves MSG_BYTES OPEN and uses 4096 in its
test programs (R6). -/
def Config.resetMsgBytes : Word := 4096#32

/-- FREE VALUE (log entry 6). Byte k of the padded message for an index outside the range 0 <= k < 64·N for which
spec/41_bitcodec_padding_packing.md R165 states one; the arguments are L, N and k. It has no body: nothing can be proved
about its value. -/
opaque Config.padBeyond : Nat → Nat → Nat → Byte

end Sys2Proof
end

