-- ==== Sys2Proof/Syntax.lean ====
section
/-! DEFINITION. The core executes no instruction stream; it has three encoded interfaces (spec/30_encoding.md): the host bus
transaction, the command of a CTRL write, and the micro-operation that PHASE selects. `Instr` has one constructor per row of
spec/opcode_table.json, `Request` is a host transaction's request, and `CodeWord` is an encoded operation of one of the three
interfaces. -/

namespace Sys2Proof

/-- The request of a host transaction (R120). `desc` is the descriptor `rw << 2 | size`. -/
structure Request where
  desc : BitVec 3
  addr : Word
  wdata : Word
  deriving DecidableEq, Repr

/-- The three encoded interfaces (spec/30_encoding.md), the formats of spec/opcode_table.json. -/
inductive Interface where
  /-- Host bus transaction, selected by its descriptor (R122). -/
  | txn
  /-- Command of a CTRL write, selected by wdata[3:0] (R123). -/
  | ctrlCmd
  /-- Micro-operation of a core step, selected by PHASE (R125). -/
  | phase
  deriving DecidableEq, Repr

/-- An encoded operation: what one of the three decoders reads. -/
inductive CodeWord where
  | txn (r : Request)
  | ctrlCmd (wdata : Word)
  | phase (code : BitVec 3)
  deriving DecidableEq, Repr

/-- One constructor per row of spec/opcode_table.json. -/
inductive Instr where
  /-- RD8 (R311): a 1-byte read. -/
  | rd8 (addr : Word)
  /-- RD32 (R310): a 4-byte read. -/
  | rd32 (addr : Word)
  /-- WR8 (R313): a 1-byte write. -/
  | wr8 (addr wdata : Word)
  /-- WR32 (R312): a 4-byte write. -/
  | wr32 (addr wdata : Word)
  /-- RD16, RD64, WR16, WR64 (R314): the descriptors with desc[0] = 1. -/
  | rsvdSize (desc : BitVec 3) (addr wdata : Word)
  /-- CTRL command 0x0 (R320). -/
  | nop (ie : Bool)
  /-- CTRL command 0x1 (R321). -/
  | start (ie : Bool)
  /-- CTRL command 0x2 (R322). -/
  | clear (ie : Bool)
  /-- CTRL command 0x3, reserved (R323). -/
  | rsvdCmd3 (ie : Bool)
  /-- CTRL commands 0x4 to 0x7, reserved (R323). -/
  | rsvdCmd4to7 (cmd : BitVec 4) (ie : Bool)
  /-- CTRL commands 0x8 to 0xF, reserved (R323). -/
  | rsvdCmd8to15 (cmd : BitVec 4) (ie : Bool)
  /-- PHASE 0 (R281). -/
  | idle
  /-- PHASE 1 (R282); its operand is the register BLKCNT. -/
  | load
  /-- PHASE 2 (R283); its operand is the register t. -/
  | round
  /-- PHASE 3 (R284). -/
  | fold
  /-- PHASE 4 (R285). -/
  | done
  /-- PHASE 5 (R286). -/
  | error
  /-- PHASE 6 or 7, reserved (R287). -/
  | rsvdPhase (code : BitVec 3)
  deriving DecidableEq, Repr

/-- The interface whose table lists the operation (spec/opcode_table.json, "format"). -/
def Instr.interface : Instr → Interface
  | .rd8 _ | .rd32 _ | .wr8 _ _ | .wr32 _ _ | .rsvdSize _ _ _ => .txn
  | .nop _ | .start _ | .clear _ | .rsvdCmd3 _ | .rsvdCmd4to7 _ _ | .rsvdCmd8to15 _ _ => .ctrlCmd
  | .idle | .load | .round | .fold | .done | .error | .rsvdPhase _ => .phase

/-- The operation's mnemonic in spec/opcode_table.json. -/
def Instr.mnemonic : Instr → String
  | .rd8 _ => "RD8"
  | .rd32 _ => "RD32"
  | .wr8 _ _ => "WR8"
  | .wr32 _ _ => "WR32"
  | .rsvdSize _ _ _ => "RSVD_SIZE__RD16__RD64__WR16__WR64__refused_with_ERR_SIZE"
  | .nop _ => "NOP"
  | .start _ => "START"
  | .clear _ => "CLEAR"
  | .rsvdCmd3 _ => "RSVD_CMD_3__refused_with_ERR_CMD"
  | .rsvdCmd4to7 _ _ => "RSVD_CMD_4_7__refused_with_ERR_CMD"
  | .rsvdCmd8to15 _ _ => "RSVD_CMD_8_15__refused_with_ERR_CMD"
  | .idle => "IDLE"
  | .load => "LOAD"
  | .round => "ROUND"
  | .fold => "FOLD"
  | .done => "DONE"
  | .error => "ERROR"
  | .rsvdPhase _ => "RSVD_PHASE__6_or_7__Fault_ReservedPhase___unreachable"

end Sys2Proof
end

