-- ==== Sys2Proof/Machine/State.lean ====
section
/-! DEFINITION. The state of the core (spec/10_state.md R30), the parameter and the host's side of the bus that stand beside it,
the reasons a step can stop, and the state after reset (R50). -/

namespace Sys2Proof.Machine

/-- Model faults (spec/60_exceptions.md R357): the outcomes in which the spec gives no value. All are safe: the model stops
where the hardware would go on with an unspecified value, or where no run comes. -/
inductive Fault where
  /-- LOAD reads a message cell below L that nothing has written (R86, R282). Safe: the hardware would hash an unspecified
  byte, and no claim rests on one. -/
  | unwrittenMessageByte
  /-- A host read covers a message cell that nothing has written (R87, R315). Safe: the hardware would return an unspecified
  byte. -/
  | unwrittenMessageRead
  /-- A core step finds PHASE 6 or 7 (R287). Safe: no rule writes these codes. -/
  | reservedPhase
  /-- The source's internal invariant violation (R354). Carried for completeness as the spec allows; nothing raises it. Safe. -/
  | internalInvariant
  deriving DecidableEq, Repr

/-- Refusals of the model itself. -/
inductive Refusal where
  /-- An instruction without a meaning yet, rejected by name in exec's arm. Safe: nothing is claimed of it. No arm of exec
  raises it any more. -/
  | notModelled (mnemonic : String)
  deriving DecidableEq, Repr

/-- Response codes of a host transaction (spec/30_encoding.md R126). Code 7 is never produced. -/
inductive Resp where
  | okay
  | errUnmapped
  | errSize
  | errAlign
  | errReadonly
  | errBusy
  | errCmd
  deriving DecidableEq, Repr

/-- The response of a host transaction (R120). -/
structure Response where
  resp : Resp
  rdata : Word
  deriving DecidableEq, Repr

/-- The three kinds of event (spec/20_memory.md R95): a core step, a host transaction, reset. -/
inductive Event where
  | clock
  | request (r : Request)
  | reset
  deriving DecidableEq, Repr

/-- The working variables a..h (R32). -/
structure Vars where
  a : Word
  b : Word
  c : Word
  d : Word
  e : Word
  f : Word
  g : Word
  h : Word
  deriving DecidableEq, Repr

/-- The message memory: (cell index, byte) pairs, indexes strictly rising. An unlisted cell is unwritten and has no value
(R86, log entry 5). -/
abbrev Memory := List Host.Cell

/-- Canonical form: indexes strictly rising. -/
abbrev Memory.wf (m : Memory) : Prop := m.Pairwise (fun x y => x.1 < y.1)

/-- PHASE codes (R34). -/
abbrev phaseIdle : BitVec 3 := 0#3
/-- PHASE code (R34). -/
abbrev phaseLoad : BitVec 3 := 1#3
/-- PHASE code (R34). -/
abbrev phaseRound : BitVec 3 := 2#3
/-- PHASE code (R34). -/
abbrev phaseFold : BitVec 3 := 3#3
/-- PHASE code (R34). -/
abbrev phaseDone : BitVec 3 := 4#3
/-- PHASE code (R34). -/
abbrev phaseError : BitVec 3 := 5#3

/-- The state of the core: exactly the fields of the record of R30, in its order. -/
structure CoreState where
  /-- H[0..7], the digest accumulators (R31). -/
  h : Vector Word 8
  /-- a..h, the working variables (R32). -/
  vars : Vars
  /-- W[0..63], the message schedule (R38). -/
  w : Vector Word 64
  /-- t, the round index (R37). -/
  t : BitVec 6
  /-- PHASE (R34). -/
  phase : BitVec 3
  /-- BLKCNT (R35). -/
  blkcnt : Word
  /-- NBLK (R36). -/
  nblk : Word
  /-- ERRCODE (R40). -/
  errcode : BitVec 4
  /-- IE, CTRL[8] (R43). -/
  ie : Bool
  /-- LEN_HI (R39). -/
  lenHi : Word
  /-- LEN_LO (R39). -/
  lenLo : Word
  /-- MSG[0..MSG_BYTES-1] (R86). -/
  msg : Memory
  /-- The fault mark (R48). -/
  fault : Option Fault
  deriving DecidableEq, Repr

/-- The configuration of an instance of the core (spec/00_scope.md R6), which R30 keeps apart from the state. -/
structure Parameters where
  /-- MSG_BYTES, the value that the register MSGSZ shows (R47). No step writes it (log entry 1). -/
  msgBytes : Word
  deriving DecidableEq, Repr

/-- The host's side of the bus, which is no state of the core (spec/60_exceptions.md R355, spec/20_memory.md R95). -/
structure HostPort where
  /-- The response the last host transaction got (R120). The model's own field (log entry 3). -/
  resp : Option Response
  /-- The events still to come, first one first; when the list is empty the next event is a core step (R95). The model's own
  field (log entry 2). -/
  inputs : List Event
  deriving DecidableEq, Repr

/-- What a step of the model acts on: the core's state (R30), the parameter it was built with, and the host's side of the
bus. -/
structure State extends CoreState, Parameters, HostPort
  deriving DecidableEq, Repr

/-- The reset value of a..h (R50). -/
def Vars.zero : Vars := ⟨0#32, 0#32, 0#32, 0#32, 0#32, 0#32, 0#32, 0#32⟩

/-- The machine right after reset (R50), with nothing pending and no response yet (log entries 2 and 3). The capacity is log
entry 1's. DESIGN CHOICE (log entry 13): the fault mark is absent, where R50 says only that reset leaves it unchanged and no
rule gives its first value. -/
def State.reset : State where
  h := Vector.replicate 8 0#32
  vars := Vars.zero
  w := Vector.replicate 64 0#32
  t := 0#6
  phase := phaseIdle
  blkcnt := 0#32
  nblk := 0#32
  errcode := 0#4
  ie := false
  lenHi := 0#32
  lenLo := 0#32
  msg := []
  fault := none
  msgBytes := Config.resetMsgBytes
  resp := none
  inputs := []

end Sys2Proof.Machine
end

