-- ==== Sys2Proof/Machine/Compression.lean ====
section
/-! DEFINITION. The compression-round engine (spec/43_compression.md): Σ1, Ch, T1, Σ0, Maj, T2, the round, the fold, and the
functional form of a whole chunk. -/

namespace Sys2Proof.Machine

/-- Σ1 (R220). -/
def bigSigma1 (e : Word) : Word := rotr e 6 ^^^ rotr e 11 ^^^ rotr e 25

/-- Ch (R221). -/
def ch (e f g : Word) : Word := (e &&& f) ^^^ (~~~e &&& g)

/-- T1 (R222). -/
def temp1 (v : Vars) (k wt : Word) : Word := v.h + bigSigma1 v.e + ch v.e v.f v.g + k + wt

/-- Σ0 (R223). -/
def bigSigma0 (a : Word) : Word := rotr a 2 ^^^ rotr a 13 ^^^ rotr a 22

/-- Maj (R224). -/
def maj (a b c : Word) : Word := (a &&& b) ^^^ (a &&& c) ^^^ (b &&& c)

/-- T2 (R225). -/
def temp2 (v : Vars) : Word := maj v.a v.b v.c + bigSigma0 v.a

/-- The round state update (R226): every new value from the old a..h. -/
def roundVars (v : Vars) (k wt : Word) : Vars where
  h := v.g
  g := v.f
  f := v.e
  e := v.d + temp1 v k wt
  d := v.c
  c := v.b
  b := v.a
  a := temp1 v k wt + temp2 v

/-- The working variables at the start of a chunk (R227, spec/45_sequencer.md R282). -/
def varsOfH (h : Vector Word 8) : Vars := ⟨h[0], h[1], h[2], h[3], h[4], h[5], h[6], h[7]⟩

/-- The fold (R228). -/
def foldH (h : Vector Word 8) (v : Vars) : Vector Word 8 :=
  #v[h[0] + v.a, h[1] + v.b, h[2] + v.c, h[3] + v.d, h[4] + v.e, h[5] + v.f, h[6] + v.g, h[7] + v.h]

/-- The first `n` rounds on a schedule, ascending (R227). -/
def runRounds (w : List Word) : Nat → Vars → Vars
  | 0, v => v
  | n + 1, v => roundVars (runRounds w n v) (kWord (BitVec.ofNat 6 n)) (w.getD n 0#32)

/-- compress (R227): exactly 64 rounds, then the fold. -/
def compress (h : Vector Word 8) (w : List Word) : Vector Word 8 := foldH h (runRounds w 64 (varsOfH h))

end Sys2Proof.Machine
end

