-- ==== Sys2Proof/Machine/AddressMap.lean ====
section
/-! DEFINITION. The host address map (spec/20_memory.md R81) and the attributes of its regions (R82). -/

namespace Sys2Proof.Machine

/-- The registers of the REG region (R81). -/
inductive Reg where
  | ctrl
  | status
  | lenHi
  | lenLo
  | nblk
  | blkcnt
  | msgsz
  deriving DecidableEq, Repr

/-- The byte-addressable regions (R81). -/
inductive Window where
  | hreg
  | hex
  | bits
  | msg
  deriving DecidableEq, Repr

/-- A mapped region (R81). -/
inductive Region where
  | reg (r : Reg)
  | window (v : Window)
  deriving DecidableEq, Repr

/-- Read or write, the bit rw of a descriptor (R120). -/
inductive Access where
  | read
  | write
  deriving DecidableEq, Repr

/-- MSG_BASE (spec/00_scope.md R6). -/
def msgBase : Nat := 0x8000_0000

/-- First address of the HREG window (R81). -/
def hregBase : Nat := 0x020

/-- First address of the HEX window (R81). -/
def hexBase : Nat := 0x100

/-- First address of the BITS window (R81). -/
def bitsBase : Nat := 0x200

/-- The register whose four bytes hold an address (R81). -/
def regAt (a : Nat) : Option Reg :=
  match a / 4 with
  | 0 => some .ctrl
  | 1 => some .status
  | 2 => some .lenHi
  | 3 => some .lenLo
  | 4 => some .nblk
  | 5 => some .blkcnt
  | 6 => some .msgsz
  | _ => none

/-- The window that holds an address, MSG being `msgBytes` long (R81). -/
def windowAt (msgBytes a : Nat) : Option Window :=
  if hregBase ≤ a ∧ a < hregBase + 32 then some .hreg
  else if hexBase ≤ a ∧ a < hexBase + 64 then some .hex
  else if bitsBase ≤ a ∧ a < bitsBase + 256 then some .bits
  else if msgBase ≤ a ∧ a < msgBase + msgBytes then some .msg
  else none

/-- The region of a host address; `none` is unmapped (R81). -/
def regionOf (msgBytes addr : Word) : Option Region :=
  match regAt addr.toNat with
  | some r => some (.reg r)
  | none => (windowAt msgBytes.toNat addr.toNat).map .window

end Sys2Proof.Machine
end

