-- ==== Sys2Proof/Machine/Operands.lean ====
section
/-! DEFINITION. Operand assembly (spec/30_encoding.md R121, R126, R127). -/

namespace Sys2Proof.Machine

/-- `L = LEN_HI · 2^32 + LEN_LO` (R127, spec/10_state.md R39). -/
def State.len (s : State) : Nat := s.lenHi.toNat * 2 ^ 32 + s.lenLo.toNat

/-- The access moves `n = 2^size` bytes (R121). -/
def accessBytes (size : BitVec 2) : Nat := 2 ^ size.toNat

/-- desc[2] = rw, 1 = write (R120). -/
def descAccess (desc : BitVec 3) : Access := if desc.getLsbD 2 then .write else .read

/-- desc[1:0] = size (R120). -/
def descSize (desc : BitVec 3) : BitVec 2 := desc.extractLsb' 0 2

/-- The byte of a 1-byte write, wdata[7:0] (R127). -/
def writeByte (wdata : Word) : Byte := wdata.setWidth 8

/-- The response codes (R126). -/
def Resp.code : Resp → BitVec 3
  | .okay => 0#3
  | .errUnmapped => 1#3
  | .errSize => 2#3
  | .errAlign => 3#3
  | .errReadonly => 4#3
  | .errBusy => 5#3
  | .errCmd => 6#3

end Sys2Proof.Machine
end

