-- ==== Sys2Proof/Machine/Ops.lean ====
section
/-! DEFINITION. The named operations over the message memory and the state: every write to a state field goes through one of
them. Entering ERROR (spec/60_exceptions.md R360) and leaving it (R361) are the hardware's exception entry and exit; a bus
response (R355) and the fault mark (R357) are the other two ways it reports an error. -/

namespace Sys2Proof.Machine

/-! ### Message memory (spec/20_memory.md R86, R87) -/

/-- The byte a cell of the list holds; `none` is unwritten. -/
def Memory.read : Memory → Nat → Option Byte
  | [], _ => none
  | (j, v) :: rest, k => if j = k then some v else Memory.read rest k

/-- Sets one cell, keeping the list's order. -/
def Memory.write : Memory → Nat → Byte → Memory
  | [], k, v => [(k, v)]
  | (j, u) :: rest, k, v =>
    if k < j then (k, v) :: (j, u) :: rest
    else if k = j then (k, v) :: rest
    else (j, u) :: Memory.write rest k v

/-- `MSG[k]`: `none` where the cell is unwritten or does not exist (k >= MSG_BYTES). -/
def State.msgCell (s : State) (k : Nat) : Option Byte :=
  if k < s.msgBytes.toNat then s.msg.read k else none

/-- `MSG[k] <- v` (R87). -/
def State.storeByte (s : State) (k : Nat) (v : Byte) : State :=
  { s with msg := s.msg.write k v }

/-- `MSG[k..k+3] <- v[31:24], v[23:16], v[15:8], v[7:0]` (R87, R84). -/
def State.storeWord (s : State) (k : Nat) (v : Word) : State :=
  { s with
    msg := (((s.msg.write k (laneByte v 0)).write (k + 1) (laneByte v 1)).write (k + 2) (laneByte v 2)).write
      (k + 3) (laneByte v 3) }

/-! ### Events, responses and the fault mark -/

/-- The response a transaction gets (spec/30_encoding.md R120). -/
def State.respond (s : State) (code : Resp) (rdata : Word) : State :=
  { s with resp := some ⟨code, rdata⟩ }

/-- The event at the head of the pending list has happened (R95). -/
def State.pop (s : State) : State :=
  { s with inputs := s.inputs.tail }

/-- The event that happens next: the first pending one, else a core step (R95, log entry 2). -/
def State.nextEvent (s : State) : Event :=
  match s.inputs with
  | [] => .clock
  | e :: _ => e

/-- The state that a model fault leaves: nothing written but the fault mark (spec/60_exceptions.md R357). -/
def State.raise (s : State) (reason : Fault) : State :=
  { s with fault := some reason }

/-! ### Registers -/

/-- `IE <- b` (spec/10_state.md R43). -/
def State.withIe (s : State) (b : Bool) : State :=
  { s with ie := b }

/-- `LEN_HI <- v` (spec/46_host_interface.md R317). -/
def State.withLenHi (s : State) (v : Word) : State :=
  { s with lenHi := v }

/-- `LEN_LO <- v` (R317). -/
def State.withLenLo (s : State) (v : Word) : State :=
  { s with lenLo := v }

/-! ### Job state -/

/-- `H <- 0; (a..h) <- 0; W <- 0; t <- 0; BLKCNT <- 0; NBLK <- 0`, the writes that CLEAR, a rejected START and reset share
(R321, R322, spec/70_reset_and_hazards.md R390). -/
def State.clearJob (s : State) : State :=
  { s with
    h := Vector.replicate 8 0#32
    vars := Vars.zero
    w := Vector.replicate 64 0#32
    t := 0#6
    blkcnt := 0#32
    nblk := 0#32 }

/-- Entry to ERROR by a rejected START (spec/60_exceptions.md R360): job state zeroed, IE set from the write, LEN and MSG
kept. -/
def State.enterError (s : State) (ie : Bool) (code : BitVec 4) : State :=
  { s.clearJob with ie := ie, errcode := code, phase := phaseError }

/-- The accepted START's writes (spec/46_host_interface.md R321), for a job of `n` chunks. -/
def State.seedJob (s : State) (ie : Bool) (n : Word) : State :=
  { s.clearJob with ie := ie, h := ivTable, nblk := n, errcode := 0#4, phase := phaseLoad }

/-- CLEAR's writes (R322), which also are the exit from ERROR and DONE to IDLE (spec/60_exceptions.md R361). -/
def State.clear (s : State) (ie : Bool) : State :=
  { s.clearJob with ie := ie, errcode := 0#4, phase := phaseIdle }

/-- The reset event (spec/70_reset_and_hazards.md R390). The fault mark is not changed (R48); MSGSZ never changes (R47); the
pending events and the last response are not the core's (log entry 3). -/
def State.resetEvent (s : State) : State :=
  { s.clearJob with
    phase := phaseIdle, errcode := 0#4, ie := false, lenHi := 0#32, lenLo := 0#32, msg := [] }

end Sys2Proof.Machine
end

