-- ==== Sys2Proof/Machine/Padding.lean ====
section
/-! DEFINITION. The bit codec, padding and word packing (spec/41_bitcodec_padding_packing.md): the bit-level functions the
source defines (R160 to R162, R166), and the byte-level form that LOAD computes (R164, R165, R167). A bit is a Bool. -/

namespace Sys2Proof.Machine

/-! ### Bit level -/

/-- toBits (R160): 8 bits a byte, most significant first. -/
def toBits (bytes : List Byte) : List Bool :=
  bytes.flatMap (fun b => (List.range 8).map (fun i => b.getLsbD (7 - i)))

/-- The number whose `n` binary digits stand in `bits` from `start` on, most significant first (R161, R166). -/
def bitsValue (bits : List Bool) (n start : Nat) : Nat :=
  ((List.range n).map (fun i => if bits.getD (start + i) false then 2 ^ (n - 1 - i) else 0)).sum

/-- fromBits (R161), for a sequence whose length is a multiple of 8. -/
def fromBits (bits : List Bool) : List Byte :=
  (List.range (bits.length / 8)).map (fun k => BitVec.ofNat 8 (bitsValue bits 8 (8 * k)))

/-- Step 3 of pad (R162): append 0 bits while (length + 64) mod 512 is not 0. `fuel` bounds the loop; 512 steps suffice. -/
def zeroFill : Nat → List Bool → List Bool
  | 0, bits => bits
  | fuel + 1, bits => if (bits.length + 64) % 512 = 0 then bits else zeroFill fuel (bits ++ [false])

/-- The 64-bit big-endian length field (R162, step 4). -/
def lengthField (bitLength : Nat) : List Bool :=
  (List.range 64).map (fun i => bitLength.testBit (63 - i))

/-- pad (R162). -/
def padBits (bytes : List Byte) : List Bool :=
  zeroFill 512 (toBits bytes ++ [true]) ++ lengthField (8 * bytes.length)

/-- pack (R166), for a sequence whose length is a multiple of 32. -/
def packWords (bits : List Bool) : List Word :=
  (List.range (bits.length / 32)).map (fun i => BitVec.ofNat 32 (bitsValue bits 32 (32 * i)))

/-! ### Byte level -/

/-- N, the number of chunks of a padded message of L bytes (R164). -/
def chunkCount (len : Nat) : Nat := (len + 8) / 64 + 1

/-- P(k), byte k of the padded message, for L = `len`, N = `n` and the cells `msg` (R165). `none` is the read of an unwritten
message cell. Past 64·N the rule states no byte: there the value is free (log entry 6). -/
def padByte (msg : Nat → Option Byte) (len n k : Nat) : Option Byte :=
  if k < len then msg k
  else if k = len then some 0x80#8
  else if k + 8 < 64 * n then some 0x00#8
  else if k < 64 * n then some (BitVec.ofNat 8 ((8 * len) >>> (8 * (7 - (k + 8 - 64 * n)))))
  else some (Config.padBeyond len n k)

/-- M(b, j), word j of chunk b (R167). -/
def chunkWord (msg : Nat → Option Byte) (len n b j : Nat) : Option Word := do
  let b0 ← padByte msg len n (64 * b + 4 * j)
  let b1 ← padByte msg len n (64 * b + 4 * j + 1)
  let b2 ← padByte msg len n (64 * b + 4 * j + 2)
  let b3 ← padByte msg len n (64 * b + 4 * j + 3)
  some (joinBytes b0 b1 b2 b3)

end Sys2Proof.Machine
end

