-- ==== Sys2Proof/Machine/Schedule.lean ====
section
/-! DEFINITION. The message-schedule expander (spec/42_message_schedule.md): σ0, σ1, the schedule of a chunk as a function
(R192), and the step the hardware makes in round t (R193). -/

namespace Sys2Proof.Machine

/-- σ0 (R190). -/
def smallSigma0 (x : Word) : Word := rotr x 7 ^^^ rotr x 18 ^^^ shr x 3

/-- σ1 (R191). -/
def smallSigma1 (x : Word) : Word := rotr x 17 ^^^ rotr x 19 ^^^ shr x 10

/-- One pass of the loop of R192 on the words made so far, `i` being their number less 16: appends
`w[i] + σ0(w[i+1]) + w[i+9] + σ1(w[i+14])`. -/
def scheduleExtend (w : List Word) : List Word :=
  let i := w.length - 16
  w ++ [w.getD i 0#32 + smallSigma0 (w.getD (i + 1) 0#32) + w.getD (i + 9) 0#32 + smallSigma1 (w.getD (i + 14) 0#32)]

/-- schedule (R192), for a chunk of 16 words: 48 passes. -/
def schedule (chunk : List Word) : List Word := Nat.iterate scheduleExtend 48 chunk

/-- Word i of the register file W. -/
def wordAt (w : Vector Word 64) (i : BitVec 6) : Word := w[i.toNat]'i.isLt

/-- The schedule word of round t (R193, first line). -/
def expandWord (w : Vector Word 64) (t : BitVec 6) : Word :=
  if t.toNat < 16 then wordAt w t
  else wordAt w (t - 16#6) + smallSigma0 (wordAt w (t - 15#6)) + wordAt w (t - 7#6) + smallSigma1 (wordAt w (t - 2#6))

/-- The register file after round t's expander half: W[t] is written when t >= 16 (R193). -/
def expandFile (w : Vector Word 64) (t : BitVec 6) : Vector Word 64 :=
  if t.toNat < 16 then w else w.set t.toNat (expandWord w t) t.isLt

end Sys2Proof.Machine
end

