-- ==== Sys2Proof/Machine/Sequencer.lean ====
section
/-! DEFINITION. The sequencer's micro-operations (spec/45_sequencer.md R281 to R287), one per core step. -/

namespace Sys2Proof.Machine

/-- IDLE (R281): no state changes. -/
def execIdle (s : State) : Host.Outcome State Fault Refusal := .next s

/-- `W[i] <- word i` for the `n` indexes i from `j` up, `none` where a word reads an unwritten message cell (R282). -/
def loadWords (word : Nat → Option Word) : Nat → Nat → Vector Word 64 → Option (Vector Word 64)
  | 0, _, w => some w
  | n + 1, j, w => do
    let x ← word j
    loadWords word n (j + 1) (w.setIfInBounds j x)

/-- LOAD's writes beside W[0..15] (R282). -/
def State.loaded (s : State) (w : Vector Word 64) : State :=
  { s with w := w, vars := varsOfH s.h, t := 0#6, phase := phaseRound }

/-- W after LOAD: words M(BLKCNT, 0..15) in W[0..15] (R282, spec/41_bitcodec_padding_packing.md R167); `none` where an
unwritten message cell is read. -/
def State.loadedFile (s : State) : Option (Vector Word 64) :=
  loadWords (chunkWord s.msgCell s.len s.nblk.toNat s.blkcnt.toNat) 16 0 s.w

/-- How LOAD ends: with its writes, or, where a word is missing, in the fault of R282. -/
def loadOutcome (s : State) : Option (Vector Word 64) → Host.Outcome State Fault Refusal
  | some w => .next (s.loaded w)
  | none => .fault .unwrittenMessageByte

/-- LOAD (R282): chunk BLKCNT of the padded message into W[0..15], H into a..h. -/
def execLoad (s : State) : Host.Outcome State Fault Refusal := loadOutcome s s.loadedFile

/-- ROUND's writes (R283): the expander half (spec/42_message_schedule.md R193), the compression half
(spec/43_compression.md R226), then t and PHASE. -/
def State.rounded (s : State) : State :=
  { s with
    w := expandFile s.w s.t
    vars := roundVars s.vars (kWord s.t) (expandWord s.w s.t)
    t := if s.t.toNat < 63 then s.t + 1#6 else s.t
    phase := if s.t.toNat < 63 then s.phase else phaseFold }

/-- ROUND (R283). -/
def execRound (s : State) : Host.Outcome State Fault Refusal := .next s.rounded

/-- FOLD's writes (R284). BLKCNT is compared in its own 32 bits (log entry 7). -/
def State.folded (s : State) : State :=
  { s with
    h := foldH s.h s.vars
    blkcnt := s.blkcnt + 1#32
    t := 0#6
    phase := if s.blkcnt + 1#32 = s.nblk then phaseDone else phaseLoad }

/-- FOLD (R284). -/
def execFold (s : State) : Host.Outcome State Fault Refusal := .next s.folded

/-- DONE (R285): no state changes. -/
def execDone (s : State) : Host.Outcome State Fault Refusal := .next s

/-- ERROR (R286): no state changes. -/
def execError (s : State) : Host.Outcome State Fault Refusal := .next s

/-- PHASE 6 or 7 (R287): Fault(ReservedPhase), no step. -/
def execRsvdPhase (_code : BitVec 3) (_s : State) : Host.Outcome State Fault Refusal := .fault .reservedPhase

end Sys2Proof.Machine
end

