-- ==== Sys2Proof/WellFormed.lean ====
section
/-! DEFINITION. An instruction is well formed when the field that a reserved row keeps lies in that row's range. Every other
field admits every value (spec/30_encoding.md R122, R123, R125). -/

namespace Sys2Proof

/-- The reserved rows' ranges: desc[0] = 1 (R122), CMD in 0x4..0x7 and in 0x8..0xF (R123), PHASE 6 or 7 (R125). -/
def Instr.wellFormed : Instr → Bool
  | .rsvdSize desc _ _ => desc.getLsbD 0
  | .rsvdCmd4to7 cmd _ => !cmd.getLsbD 3 && cmd.getLsbD 2
  | .rsvdCmd8to15 cmd _ => cmd.getLsbD 3
  | .rsvdPhase code => code.getLsbD 2 && code.getLsbD 1
  | .rd8 _ | .rd32 _ | .wr8 _ _ | .wr32 _ _ => true
  | .nop _ | .start _ | .clear _ | .rsvdCmd3 _ => true
  | .idle | .load | .round | .fold | .done | .error => true

end Sys2Proof
end

