-- ==== Sys2Proof/Decode.lean ====
section
/-! DEFINITION. The decoders of the three encoded interfaces (spec/30_encoding.md), each total, the encoder written from the
same tables, and the reading of a row of spec/opcode_table.json as one number. Nothing is reserved without a meaning: the
reserved encodings decode to constructors of their own (R128). Only a number that is no code word of any interface is
rejected, by name. -/

namespace Sys2Proof

/-- The descriptor of a 4-byte write (R122). -/
def descWr32 : BitVec 3 := 0b110#3

/-- The host address of CTRL (spec/20_memory.md R81). -/
def ctrlAddr : Word := 0x0000_0000#32

/-- Descriptor decode (R122): desc[2] = rw, desc[1:0] = size; the refused ones are those with desc[0] = 1. A read ignores
wdata (R120). -/
def decodeDesc (r : Request) : Instr :=
  match r.desc.getLsbD 0, r.desc.getLsbD 2, r.desc.getLsbD 1 with
  | true, _, _ => .rsvdSize r.desc r.addr r.wdata
  | false, false, false => .rd8 r.addr
  | false, false, true => .rd32 r.addr
  | false, true, false => .wr8 r.addr r.wdata
  | false, true, true => .wr32 r.addr r.wdata

/-- `cmd = wdata[3:0]` (R123). -/
def cmdField (wdata : Word) : BitVec 4 := wdata.extractLsb' 0 4

/-- `ie = wdata[8]` (R123). -/
def ieField (wdata : Word) : Bool := wdata.getLsbD 8

/-- Command decode (R123). wdata[7:4] and wdata[31:9] are ignored. -/
def decodeCommand (wdata : Word) : Instr :=
  let cmd := cmdField wdata
  let ie := ieField wdata
  match cmd.getLsbD 3, cmd.getLsbD 2, cmd.getLsbD 1, cmd.getLsbD 0 with
  | true, _, _, _ => .rsvdCmd8to15 cmd ie
  | false, true, _, _ => .rsvdCmd4to7 cmd ie
  | false, false, true, true => .rsvdCmd3 ie
  | false, false, true, false => .clear ie
  | false, false, false, true => .start ie
  | false, false, false, false => .nop ie

/-- Micro-operation decode (R125). -/
def decodePhase (code : BitVec 3) : Instr :=
  match code.getLsbD 2, code.getLsbD 1, code.getLsbD 0 with
  | false, false, false => .idle
  | false, false, true => .load
  | false, true, false => .round
  | false, true, true => .fold
  | true, false, false => .done
  | true, false, true => .error
  | true, true, _ => .rsvdPhase code

/-- The decoder: each interface by its own table. -/
def decode : CodeWord → Instr
  | .txn r => decodeDesc r
  | .ctrlCmd wdata => decodeCommand wdata
  | .phase code => decodePhase code

/-- The code word that a host request presents: "A decoder tells the operation from the descriptor alone, and for a CTRL
write it tells the command from wdata[3:0]" (R129). -/
def codeOfRequest (r : Request) : CodeWord :=
  if r.desc = descWr32 ∧ r.addr = ctrlAddr then .ctrlCmd r.wdata else .txn r

/-- The write data of a CTRL command: CMD in bits 3:0, IE in bit 8, every reserved bit 0 (R123). -/
def ctrlWord (cmd : BitVec 4) (ie : Bool) : Word :=
  0#23 ++ BitVec.ofBool ie ++ 0#4 ++ cmd

/-- The encoder, from the tables of R122, R123 and R125; ignored bits are 0. -/
def encode : Instr → CodeWord
  | .rd8 addr => .txn ⟨0b000#3, addr, 0#32⟩
  | .rd32 addr => .txn ⟨0b010#3, addr, 0#32⟩
  | .wr8 addr wdata => .txn ⟨0b100#3, addr, wdata⟩
  | .wr32 addr wdata => .txn ⟨0b110#3, addr, wdata⟩
  | .rsvdSize desc addr wdata => .txn ⟨desc, addr, wdata⟩
  | .nop ie => .ctrlCmd (ctrlWord 0x0#4 ie)
  | .start ie => .ctrlCmd (ctrlWord 0x1#4 ie)
  | .clear ie => .ctrlCmd (ctrlWord 0x2#4 ie)
  | .rsvdCmd3 ie => .ctrlCmd (ctrlWord 0x3#4 ie)
  | .rsvdCmd4to7 cmd ie => .ctrlCmd (ctrlWord cmd ie)
  | .rsvdCmd8to15 cmd ie => .ctrlCmd (ctrlWord cmd ie)
  | .idle => .phase 0#3
  | .load => .phase 1#3
  | .round => .phase 2#3
  | .fold => .phase 3#3
  | .done => .phase 4#3
  | .error => .phase 5#3
  | .rsvdPhase code => .phase code

/-- The code word with the bits that its instruction does not keep set to 0: wdata of RD8 and RD32 (R120), wdata[7:4] and
wdata[31:9] of a command (R123). RSVD_SIZE keeps wdata as an operand, RD16's and RD64's included. -/
def CodeWord.canonical : CodeWord → CodeWord
  | .txn r => .txn { r with wdata := if r.desc = 0b000#3 ∨ r.desc = 0b010#3 then 0#32 else r.wdata }
  | .ctrlCmd wdata => .ctrlCmd (wdata &&& 0x0000_010F#32)
  | .phase code => .phase code

/-! ### The opcode table -/

/-- The interface of a code word. -/
def CodeWord.interface : CodeWord → Interface
  | .txn _ => .txn
  | .ctrlCmd _ => .ctrlCmd
  | .phase _ => .phase

/-- The bits of a code word that select its operation: the descriptor, CMD, or PHASE. -/
def CodeWord.selector : CodeWord → Nat
  | .txn r => r.desc.toNat
  | .ctrlCmd wdata => (cmdField wdata).toNat
  | .phase code => code.toNat

/-- A row of spec/opcode_table.json: its interface, its mask and its match. -/
structure OpcodeRow where
  mnemonic : String
  interface : Interface
  mask : Nat
  value : Nat
  deriving DecidableEq, Repr

/-- spec/opcode_table.json, row for row. -/
def opcodeTable : List OpcodeRow :=
  [ ⟨"RD8", .txn, 0b111, 0b000⟩,
    ⟨"RD32", .txn, 0b111, 0b010⟩,
    ⟨"WR8", .txn, 0b111, 0b100⟩,
    ⟨"WR32", .txn, 0b111, 0b110⟩,
    ⟨"RSVD_SIZE__RD16__RD64__WR16__WR64__refused_with_ERR_SIZE", .txn, 0b001, 0b001⟩,
    ⟨"NOP", .ctrlCmd, 0xF, 0x0⟩,
    ⟨"START", .ctrlCmd, 0xF, 0x1⟩,
    ⟨"CLEAR", .ctrlCmd, 0xF, 0x2⟩,
    ⟨"RSVD_CMD_3__refused_with_ERR_CMD", .ctrlCmd, 0xF, 0x3⟩,
    ⟨"RSVD_CMD_4_7__refused_with_ERR_CMD", .ctrlCmd, 0xC, 0x4⟩,
    ⟨"RSVD_CMD_8_15__refused_with_ERR_CMD", .ctrlCmd, 0x8, 0x8⟩,
    ⟨"IDLE", .phase, 0b111, 0b000⟩,
    ⟨"LOAD", .phase, 0b111, 0b001⟩,
    ⟨"ROUND", .phase, 0b111, 0b010⟩,
    ⟨"FOLD", .phase, 0b111, 0b011⟩,
    ⟨"DONE", .phase, 0b111, 0b100⟩,
    ⟨"ERROR", .phase, 0b111, 0b101⟩,
    ⟨"RSVD_PHASE__6_or_7__Fault_ReservedPhase___unreachable", .phase, 0b110, 0b110⟩ ]

/-- Whether a row lists a selector of an interface. -/
def OpcodeRow.matches (row : OpcodeRow) (iface : Interface) (selector : Nat) : Bool :=
  row.interface == iface && selector &&& row.mask == row.value

/-! ### A row's word as one number -/

/-- Why a number is no code word. -/
inductive DecodeError where
  /-- The number does not fit the bits given. -/
  | exceedsBits
  /-- More bits are given than the longest code word has (8 descriptor bits, addr, wdata). -/
  | tooManyBits
  /-- A descriptor byte with a bit above desc[2] set. -/
  | descriptorBits
  deriving DecidableEq, Repr

/-- The code word that a number stands for. DESIGN CHOICE (log entry 9): the table numbers each interface from 0 and gives a
row no interface bits, so a number of at most 8 bits is read as a PHASE code where it is one (the only code the core itself
reads at each step, R125) and as a CTRL write's data otherwise; 9 to 32 bits are a CTRL write's data (R123); 33 to 72 bits are
a whole request, the descriptor in bits 7:0, addr in bits 39:8, wdata in bits 71:40 (R120). -/
def readTableWord (nbits w : Nat) : Except DecodeError CodeWord :=
  if 2 ^ nbits ≤ w then .error .exceedsBits
  else if nbits ≤ 8 then
    if w < 8 then .ok (.phase (BitVec.ofNat 3 w)) else .ok (.ctrlCmd (BitVec.ofNat 32 w))
  else if nbits ≤ 32 then .ok (.ctrlCmd (BitVec.ofNat 32 w))
  else if nbits ≤ 72 then
    if w % 256 < 8 then
      .ok (codeOfRequest ⟨BitVec.ofNat 3 w, BitVec.ofNat 32 (w / 2 ^ 8), BitVec.ofNat 32 (w / 2 ^ 40)⟩)
    else .error .descriptorBits
  else .error .tooManyBits

/-- The instruction the decoder reads from a table row's number. -/
def decodeTableWord (nbits w : Nat) : Option Instr :=
  match readTableWord nbits w with
  | .ok c => some (decode c)
  | .error _ => none

end Sys2Proof
end

