-- ==== Sys2Proof/Machine/Flags.lean ====
section
/-! DEFINITION. The status flags, all functions of the state (spec/10_state.md R44, R45, R51), and the two register words made
of them. -/

namespace Sys2Proof.Machine

/-- BUSY: PHASE is LOAD, ROUND or FOLD (R34, R44). -/
def State.busy (s : State) : Bool :=
  s.phase == phaseLoad || s.phase == phaseRound || s.phase == phaseFold

/-- DONE (R44). -/
def State.isDone (s : State) : Bool := s.phase == phaseDone

/-- ERR (R44). -/
def State.isError (s : State) : Bool := s.phase == phaseError

/-- The level output irq (R45). -/
def State.irq (s : State) : Bool := s.ie && (s.isDone || s.isError)

/-- STATUS (R44), its fields from bit 31 down to bit 0. -/
def State.status (s : State) : Word :=
  0#10 ++ s.t ++ 0#4 ++ s.errcode ++ 0#1 ++ s.phase ++ BitVec.ofBool s.irq ++ BitVec.ofBool s.isError ++
    BitVec.ofBool s.isDone ++ BitVec.ofBool s.busy

/-- The value a read of CTRL returns, `IE << 8` (R46). -/
def State.ctrlValue (s : State) : Word :=
  0#23 ++ BitVec.ofBool s.ie ++ 0#8

end Sys2Proof.Machine
end

