-- ==== Sys2Proof/Machine/Formatter.lean ====
section
/-! DEFINITION. The digest output formatter (spec/44_digest_formatter.md): the digest bytes, the hexadecimal characters and
the bit characters, each a function of H. -/

namespace Sys2Proof.Machine

/-- D[d], byte d of the digest (R260). -/
def digestByte (h : Vector Word 8) (d : Fin 32) : Byte :=
  ((h[d.val / 4]'(by omega)) >>> (24 - 8 * (d.val % 4))).setWidth 8

/-- The character code of a nibble (R262). -/
def hexChar (v : BitVec 4) : Byte :=
  if v.toNat ≤ 9 then 0x30#8 + v.setWidth 8 else 0x61#8 + (v.setWidth 8 - 10#8)

/-- The character code of a bit (R262). -/
def bitChar (b : Bool) : Byte := if b then 0x31#8 else 0x30#8

/-- nib(n): the high nibble of byte n div 2 for even n, the low one for odd n (R261). -/
def digestNibble (h : Vector Word 8) (n : Fin 64) : BitVec 4 :=
  let d := digestByte h ⟨n.val / 2, by omega⟩
  if n.val % 2 = 0 then (d >>> 4).setWidth 4 else d.setWidth 4

/-- X[n], character n of toHex (R261). -/
def hexDigit (h : Vector Word 8) (n : Fin 64) : Byte := hexChar (digestNibble h n)

/-- Bc[n], character n of the bit string (R263). -/
def bitDigit (h : Vector Word 8) (n : Fin 256) : Byte :=
  bitChar ((digestByte h ⟨n.val / 8, by omega⟩).getLsbD (7 - n.val % 8))

/-- The 32 digest bytes (R260). -/
def serialise (h : Vector Word 8) : List Byte :=
  (List.range 32).map (fun d => digestByte h (Fin.ofNat 32 d))

/-- The 64 hexadecimal characters (R261). -/
def hexString (h : Vector Word 8) : List Byte :=
  (List.range 64).map (fun n => hexDigit h (Fin.ofNat 64 n))

/-- The 256 bit characters (R263). -/
def bitString (h : Vector Word 8) : List Byte :=
  (List.range 256).map (fun n => bitDigit h (Fin.ofNat 256 n))

end Sys2Proof.Machine
end

