-- ==== Sys2Proof/Machine/Access.lean ====
section
/-! DEFINITION. Access checking and read values of the host interface (spec/46_host_interface.md R314, R315). -/

namespace Sys2Proof.Machine

/-- Tests 5c and 5d: START while BUSY, and the reserved commands. -/
def commandRefusal (cmd : BitVec 4) (busy : Bool) : Option Resp :=
  if cmd = 0x1#4 ∧ busy then some .errBusy
  else if 3 ≤ cmd.toNat then some .errCmd
  else none

/-- Tests 5a to 5d: what a write to a mapped region is refused with. -/
def writeRefusal (g : Region) (wdata : Word) (busy : Bool) : Option Resp :=
  match g with
  | .reg .status | .reg .nblk | .reg .blkcnt | .reg .msgsz => some .errReadonly
  | .window .hreg | .window .hex | .window .bits => some .errReadonly
  | .reg .lenHi | .reg .lenLo | .window .msg => if busy then some .errBusy else none
  | .reg .ctrl => commandRefusal (cmdField wdata) busy

/-- Whether a region is REG. -/
def Region.isReg : Region → Bool
  | .reg _ => true
  | .window _ => false

/-- Check (R314): the first failing test's response, or the region the access goes to. -/
def check (rw : Access) (size : BitVec 2) (addr wdata : Word) (s : State) : Except Resp Region :=
  let n := accessBytes size
  if n ≠ 1 ∧ n ≠ 4 then .error .errSize
  else if n = 4 ∧ addr.toNat % 4 ≠ 0 then .error .errAlign
  else
    match regionOf s.msgBytes addr with
    | none => .error .errUnmapped
    | some g =>
      if g.isReg ∧ n = 1 then .error .errSize
      else
        match rw with
        | .read => .ok g
        | .write =>
          match writeRefusal g wdata s.busy with
          | some r => .error r
          | none => .ok g

/-- The response code that Check gives (R314). -/
def checkResp (rw : Access) (size : BitVec 2) (addr wdata : Word) (s : State) : Resp :=
  match check rw size addr wdata s with
  | .ok _ => .okay
  | .error r => r

/-- RegValue (R315). -/
def regValue (s : State) : Reg → Word
  | .ctrl => s.ctrlValue
  | .status => s.status
  | .lenHi => s.lenHi
  | .lenLo => s.lenLo
  | .nblk => s.nblk
  | .blkcnt => s.blkcnt
  | .msgsz => s.msgBytes

/-- V(a), the byte view of an address of a window (R315). Offsets lie inside the window, so that no `Fin.ofNat` wraps. -/
def viewByte (s : State) (v : Window) (a : Nat) : Except Fault Byte :=
  match v with
  | .hreg => .ok (digestByte s.h (Fin.ofNat 32 (a - hregBase)))
  | .hex => .ok (hexDigit s.h (Fin.ofNat 64 (a - hexBase)))
  | .bits => .ok (bitDigit s.h (Fin.ofNat 256 (a - bitsBase)))
  | .msg =>
    match s.msgCell (a - msgBase) with
    | some b => .ok b
    | none => .error .unwrittenMessageRead

/-- `V(a) << 24 | V(a+1) << 16 | V(a+2) << 8 | V(a+3)` (R310). -/
def viewWord (s : State) (v : Window) (a : Nat) : Except Fault Word := do
  let b0 ← viewByte s v a
  let b1 ← viewByte s v (a + 1)
  let b2 ← viewByte s v (a + 2)
  let b3 ← viewByte s v (a + 3)
  .ok (joinBytes b0 b1 b2 b3)

end Sys2Proof.Machine
end

