-- ==== Sys2Proof/Machine/Commands.lean ====
section
/-! DEFINITION. The commands of a CTRL write (spec/46_host_interface.md R316, R320 to R323). A command's meaning is that of the
whole transaction `WR32 CTRL` that carries it, its refusals by Check included (log entry 11). -/

namespace Sys2Proof.Machine

/-- START's writes (R321): the oversize test first, then the buffer test (spec/60_exceptions.md R353). -/
def State.start (s : State) (ie : Bool) : State :=
  if 2 ^ 61 ≤ s.len then s.enterError ie 1#4
  else if s.msgBytes.toNat < s.len then s.enterError ie 2#4
  else s.seedJob ie (BitVec.ofNat 32 (chunkCount s.len))

/-- A CTRL write: refused by test 5c or 5d, or performed with the effect `after` (R314, R316). -/
def commandWrite (cmd : BitVec 4) (s after : State) : Host.Outcome State Fault Refusal :=
  match commandRefusal cmd s.busy with
  | some r => .next (s.respond r 0#32)
  | none => .next (after.respond .okay 0#32)

/-- NOP (R320): `IE <- wdata[8]`. -/
def execNop (ie : Bool) (s : State) : Host.Outcome State Fault Refusal :=
  commandWrite 0x0#4 s (s.withIe ie)

/-- START (R321). -/
def execStart (ie : Bool) (s : State) : Host.Outcome State Fault Refusal :=
  commandWrite 0x1#4 s (s.start ie)

/-- CLEAR (R322). -/
def execClear (ie : Bool) (s : State) : Host.Outcome State Fault Refusal :=
  commandWrite 0x2#4 s (s.clear ie)

/-- Command 0x3 (R323): refused with ERR_CMD, IE not updated. -/
def execRsvdCmd3 (_ie : Bool) (s : State) : Host.Outcome State Fault Refusal :=
  .next (s.respond .errCmd 0#32)

/-- Commands 0x4 to 0x7 (R323). -/
def execRsvdCmd4to7 (_cmd : BitVec 4) (_ie : Bool) (s : State) : Host.Outcome State Fault Refusal :=
  .next (s.respond .errCmd 0#32)

/-- Commands 0x8 to 0xF (R323). -/
def execRsvdCmd8to15 (_cmd : BitVec 4) (_ie : Bool) (s : State) : Host.Outcome State Fault Refusal :=
  .next (s.respond .errCmd 0#32)

/-- The CTRL write dispatch (R316) by wdata[3:0]. -/
def ctrlDispatch (wdata : Word) (s : State) : Host.Outcome State Fault Refusal :=
  match decodeCommand wdata with
  | .nop ie => execNop ie s
  | .start ie => execStart ie s
  | .clear ie => execClear ie s
  | .rsvdCmd3 ie => execRsvdCmd3 ie s
  | .rsvdCmd4to7 cmd ie => execRsvdCmd4to7 cmd ie s
  | .rsvdCmd8to15 cmd ie => execRsvdCmd8to15 cmd ie s
  | .rd8 _ | .rd32 _ | .wr8 _ _ | .wr32 _ _ | .rsvdSize _ _ _ | .idle | .load | .round | .fold | .done | .error
  | .rsvdPhase _ => .next (s.respond .errCmd 0#32)

end Sys2Proof.Machine
end

