-- ==== Sys2Proof/Machine/Transactions.lean ====
section
/-! DEFINITION. The host transactions (spec/46_host_interface.md R310 to R314). A refused transaction gets its response and
rdata 0 and has no other effect (spec/60_exceptions.md R355). Where Check has already refused an access, the arm that is left
over repeats its answer (spec/20_memory.md R82). -/

namespace Sys2Proof.Machine

/-- A read's outcome: the data, or the model fault of an unwritten cell (R310, R311). -/
def readOutcome (s : State) (value : Except Fault Word) : Host.Outcome State Fault Refusal :=
  match value with
  | .ok v => .next (s.respond .okay v)
  | .error f => .fault f

/-- RD32 (R310). -/
def execRd32 (addr : Word) (s : State) : Host.Outcome State Fault Refusal :=
  match check .read 2#2 addr 0#32 s with
  | .error r => .next (s.respond r 0#32)
  | .ok (.reg r) => .next (s.respond .okay (regValue s r))
  | .ok (.window v) => readOutcome s (viewWord s v addr.toNat)

/-- RD8 (R311). Check refuses a REG address (test 4). -/
def execRd8 (addr : Word) (s : State) : Host.Outcome State Fault Refusal :=
  match check .read 0#2 addr 0#32 s with
  | .error r => .next (s.respond r 0#32)
  | .ok (.reg _) => .next (s.respond .errSize 0#32)
  | .ok (.window v) => readOutcome s ((viewByte s v addr.toNat).map (fun b => b.setWidth 32))

/-- WR32 (R312). Check refuses the read-only registers and windows (test 5a). -/
def execWr32 (addr wdata : Word) (s : State) : Host.Outcome State Fault Refusal :=
  match check .write 2#2 addr wdata s with
  | .error r => .next (s.respond r 0#32)
  | .ok (.reg .ctrl) => ctrlDispatch wdata s
  | .ok (.reg .lenHi) => .next ((s.withLenHi wdata).respond .okay 0#32)
  | .ok (.reg .lenLo) => .next ((s.withLenLo wdata).respond .okay 0#32)
  | .ok (.window .msg) => .next ((s.storeWord (addr.toNat - msgBase) wdata).respond .okay 0#32)
  | .ok (.reg .status) | .ok (.reg .nblk) | .ok (.reg .blkcnt) | .ok (.reg .msgsz)
  | .ok (.window .hreg) | .ok (.window .hex) | .ok (.window .bits) => .next (s.respond .errReadonly 0#32)

/-- WR8 (R313). Only MSG accepts a 1-byte write. -/
def execWr8 (addr wdata : Word) (s : State) : Host.Outcome State Fault Refusal :=
  match check .write 0#2 addr wdata s with
  | .error r => .next (s.respond r 0#32)
  | .ok (.window .msg) => .next ((s.storeByte (addr.toNat - msgBase) (writeByte wdata)).respond .okay 0#32)
  | .ok (.reg _) => .next (s.respond .errSize 0#32)
  | .ok (.window .hreg) | .ok (.window .hex) | .ok (.window .bits) => .next (s.respond .errReadonly 0#32)

/-- RD16, RD64, WR16, WR64: Check's first test refuses a size of 2 or 8 bytes, whatever the address (R314). The arm for an
accepted access is met only by an ill-formed descriptor (log entry 12). -/
def execRsvdSize (desc : BitVec 3) (addr wdata : Word) (s : State) : Host.Outcome State Fault Refusal :=
  match check (descAccess desc) (descSize desc) addr wdata s with
  | .error r => .next (s.respond r 0#32)
  | .ok _ => .next (s.respond .errSize 0#32)

end Sys2Proof.Machine
end

