-- ==== Sys2Proof/Machine/Dispatch.lean ====
section
/-! DEFINITION. One arm per instruction, each a direct call of its meaning (spec/opcode_table.json, in its order). -/

namespace Sys2Proof.Machine

/-- What an instruction does. -/
def exec (i : Instr) (s : State) : Host.Outcome State Fault Refusal :=
  match i with
  -- host transactions
  | .rd8 addr => Sys2Proof.Machine.execRd8 addr s
  | .rd32 addr => Sys2Proof.Machine.execRd32 addr s
  | .wr8 addr wdata => Sys2Proof.Machine.execWr8 addr wdata s
  | .wr32 addr wdata => Sys2Proof.Machine.execWr32 addr wdata s
  | .rsvdSize desc addr wdata => Sys2Proof.Machine.execRsvdSize desc addr wdata s
  -- commands of a CTRL write
  | .nop ie => Sys2Proof.Machine.execNop ie s
  | .start ie => Sys2Proof.Machine.execStart ie s
  | .clear ie => Sys2Proof.Machine.execClear ie s
  | .rsvdCmd3 ie => Sys2Proof.Machine.execRsvdCmd3 ie s
  | .rsvdCmd4to7 cmd ie => Sys2Proof.Machine.execRsvdCmd4to7 cmd ie s
  | .rsvdCmd8to15 cmd ie => Sys2Proof.Machine.execRsvdCmd8to15 cmd ie s
  -- micro-operations of a core step
  | .idle => Sys2Proof.Machine.execIdle s
  | .load => Sys2Proof.Machine.execLoad s
  | .round => Sys2Proof.Machine.execRound s
  | .fold => Sys2Proof.Machine.execFold s
  | .done => Sys2Proof.Machine.execDone s
  | .error => Sys2Proof.Machine.execError s
  | .rsvdPhase code => Sys2Proof.Machine.execRsvdPhase code s

end Sys2Proof.Machine
end

