-- ==== Sys2Proof/Machine/Fetch.lean ====
section
/-! DEFINITION. What a step runs next: the instruction of the next event (spec/20_memory.md R95, spec/45_sequencer.md R288), and
the placing of a code word where the next step finds it. -/

namespace Sys2Proof.Machine

/-- The instruction of a core step, by PHASE (spec/30_encoding.md R125). -/
def State.microOp (s : State) : Instr := decode (.phase s.phase)

/-- The instruction of a host request (R122, R129). -/
def requestInstr (r : Request) : Instr := decode (codeOfRequest r)

/-- The state whose next event carries the code word: a PHASE code goes into PHASE and the next event is a core step; a
request, or the CTRL write that carries a command, becomes the next pending event (log entries 9 and 10). -/
def State.place (s : State) : CodeWord → State
  | .phase code => { s with phase := code, inputs := .clock :: s.inputs }
  | .ctrlCmd wdata => { s with inputs := .request ⟨descWr32, ctrlAddr, wdata⟩ :: s.inputs }
  | .txn r => { s with inputs := .request r :: s.inputs }

end Sys2Proof.Machine
end

