-- ==== Sys2Proof/Machine/Step.lean ====
section
/-! DEFINITION. One event of the machine (spec/20_memory.md R95): a core step, a host transaction or reset. -/

namespace Sys2Proof.Machine

/-- One event. A faulted state is quiescent: no agent steps (spec/60_exceptions.md R357, spec/45_sequencer.md R288). -/
def step (s : State) : Host.Outcome State Fault Refusal :=
  match s.fault with
  | some r => .fault r
  | none =>
    match s.nextEvent with
    | .clock => exec s.microOp s.pop
    | .request q => exec (requestInstr q) s.pop
    | .reset => .next s.pop.resetEvent

/-- The state with a table row's word placed where the next step reads it; unchanged where the number is no code word. -/
def State.withFetchWord (s : State) (nbits w : Nat) : State :=
  match readTableWord nbits w with
  | .ok c => s.place c
  | .error _ => s

/-- The state an event leaves, a model fault's included: the fault sets the fault mark and writes nothing else
(spec/60_exceptions.md R357, log entry 4). -/
def State.settle (s : State) : State :=
  match step s with
  | .next s' => s'
  | .fault r => s.raise r
  | .refused _ => s

end Sys2Proof.Machine
end

