-- ==== Sys2Proof/Machine/Sum.lean ====
section
/-! DEFINITION. Sum (spec/45_sequencer.md R280), the function the hardware must compute, composed of the source's own
functions and of none of the sequencer's steps. -/

namespace Sys2Proof.Machine

/-- The accumulators after the first `n` chunks of a packed message, from the IV (R280, R229). -/
def chainChunks (words : List Word) : Nat → Vector Word 8
  | 0 => ivTable
  | n + 1 => compress (chainChunks words n) (schedule ((words.drop (16 * n)).take 16))

/-- The accumulators after every chunk of a message (R280). -/
def sumWords (bytes : List Byte) : Vector Word 8 :=
  let words := packWords (padBits bytes)
  chainChunks words (words.length / 16)

/-- Sum (R280). -/
def sumBytes (bytes : List Byte) : List Byte := serialise (sumWords bytes)

end Sys2Proof.Machine
end

