-- ==== Sys2Proof/Safety.lean ====
section
/-! DEFINITION. The terms in which claims about the core are written: the invariant of a reachable state, what a step may not
touch, and what a running job is. -/

namespace Sys2Proof

/-- The operation a transaction performs: a WR32 to CTRL performs the command in its data (spec/46_host_interface.md R316),
every other instruction itself. -/
def Instr.performed (i : Instr) : Instr :=
  match i with
  | .wr32 addr wdata => if addr = ctrlAddr then decodeCommand wdata else .wr32 addr wdata
  | .rd8 _ | .rd32 _ | .wr8 _ _ | .rsvdSize _ _ _ | .nop _ | .start _ | .clear _ | .rsvdCmd3 _ | .rsvdCmd4to7 _ _
  | .rsvdCmd8to15 _ _ | .idle | .load | .round | .fold | .done | .error | .rsvdPhase _ => i

end Sys2Proof

namespace Sys2Proof.Machine

/-- The capacities the spec allows (spec/00_scope.md R6): MSG_BYTES mod 4 = 0 and 4 <= MSG_BYTES <= 2^31. -/
abbrev State.CapacityLegal (s : State) : Prop :=
  s.msgBytes.toNat % 4 = 0 ∧ 4 ≤ s.msgBytes.toNat ∧ s.msgBytes.toNat ≤ 2 ^ 31

/-- What holds in every state that a run reaches. Each field cites the rules it rests on. -/
structure State.Inv (s : State) : Prop where
  /-- The message memory keeps its canonical form. -/
  memoryRising : s.msg.wf
  /-- MSG holds cells 0 to MSG_BYTES-1 only (R86). -/
  memoryBound : ∀ c ∈ s.msg, c.1 < s.msgBytes.toNat
  /-- The parameter is a legal one (R6). -/
  capacity : s.CapacityLegal
  /-- PHASE 6 and 7 are never written (R34, R287). -/
  phaseLegal : s.phase.toNat ≤ 5
  /-- ERRCODE is 1 or 2 in ERROR and 0 in every other phase (R40, R351, R352). -/
  errcodeLegal : if s.phase = phaseError then s.errcode = 1#4 ∨ s.errcode = 2#4 else s.errcode = 0#4
  /-- t is 63 in FOLD and 0 outside ROUND and FOLD (R37). -/
  roundIndex : if s.phase = phaseFold then s.t = 63#6 else s.phase = phaseRound ∨ s.t = 0#6
  /-- While BUSY the message fits, NBLK is its chunk count, and BLKCNT is below NBLK (R35, R36, R96). -/
  runningJob : s.busy = true →
    s.len ≤ s.msgBytes.toNat ∧ s.nblk.toNat = chunkCount s.len ∧ s.blkcnt.toNat < s.nblk.toNat
  /-- In DONE every chunk of at least one is folded (R35, R164). -/
  finishedJob : s.phase = phaseDone → s.blkcnt = s.nblk ∧ 1 ≤ s.nblk.toNat
  /-- NBLK <= 2^25 + 1 (R36). -/
  chunkBound : s.nblk.toNat ≤ 2 ^ 25 + 1
  /-- In IDLE and ERROR the job state is 0 (R267, R286, R322). -/
  quietJob : s.phase = phaseIdle ∨ s.phase = phaseError →
    s.h = Vector.replicate 8 0#32 ∧ s.vars = Vars.zero ∧ s.w = Vector.replicate 64 0#32 ∧ s.blkcnt = 0#32 ∧ s.nblk = 0#32

/-- An address that lies in none of the regions of spec/20_memory.md R81. -/
abbrev State.Unmapped (s : State) (a : Nat) : Prop :=
  ¬(a ≤ 0x1B ∨ (0x20 ≤ a ∧ a ≤ 0x3F) ∨ (0x100 ≤ a ∧ a ≤ 0x13F) ∨ (0x200 ≤ a ∧ a ≤ 0x2FF) ∨
    (0x8000_0000 ≤ a ∧ a < 0x8000_0000 + s.msgBytes.toNat))

/-- Two states agree on everything the spec gives the core, its parameter included; only the host's side may differ. -/
abbrev State.SameCore (s s' : State) : Prop :=
  s'.toCoreState = s.toCoreState ∧ s'.toParameters = s.toParameters

/-- The message memory holds the message `bytes` (spec/70_reset_and_hazards.md R393, step 1). -/
def State.HoldsMessage (s : State) (bytes : List Byte) : Prop :=
  ∀ k, k < bytes.length → s.msgCell k = bytes[k]?

/-- The state right after the accepted START of a job on `bytes` (spec/46_host_interface.md R321). -/
structure State.JobStarted (s : State) (bytes : List Byte) : Prop where
  unfaulted : s.fault = none
  loading : s.phase = phaseLoad
  firstChunk : s.blkcnt = 0#32
  firstRound : s.t = 0#6
  seeded : s.h = ivTable
  chunks : s.nblk.toNat = chunkCount bytes.length
  length : s.len = bytes.length
  capacity : s.CapacityLegal
  fits : bytes.length ≤ s.msgBytes.toNat
  message : s.HoldsMessage bytes

/-- An event that leaves a running job to itself: a core step, or a host transaction that is no CLEAR and reads no unwritten
message cell (spec/45_sequencer.md R289). -/
def State.Undisturbing (s : State) (e : Event) : Prop :=
  match e with
  | .clock => True
  | .reset => False
  | .request q => (∀ ie, requestInstr q ≠ .clear ie) ∧ ∀ f, exec (requestInstr q) s ≠ .fault f

end Sys2Proof.Machine
end

