-- ==== Sys2Proof/Certificates/Slice0/Obligations.lean ====
section
/-! DEFINITION. The statements about the core, one per rule or law of spec/ that says what the machine does. A next state is
written as the old state with the fields that change, so that each statement of an effect is its frame as well. -/

open Sys2Proof Sys2Proof.Machine

/-! ### Encodings and the step -/

/-- Decoding an encoded well-formed instruction gives it back, for all 18 constructors and every operand value (the tables of
R122, R123, R125). -/
def Obligations.DecodeInvertsEncode : Prop :=
  ∀ i : Instr, i.wellFormed = true → decode (encode i) = i

/-- Encoding a decoded code word gives it back, with wdata of RD8 and RD32 and a command's wdata[7:4] and wdata[31:9] set to 0
(R120, R123). The refused reads RD16 and RD64 keep wdata, an operand of RSVD_SIZE. -/
def Obligations.EncodeInvertsDecodeUpToIgnoredBits : Prop :=
  ∀ c : CodeWord, encode (decode c) = c.canonical

/-- Every code word of every interface decodes to a well-formed instruction of that interface: the decoders are total and no
reserved encoding falls to a neighbour (R122, R123, R125, R128). -/
def Obligations.EveryCodeWordDecodesWellFormed : Prop :=
  ∀ c : CodeWord, (decode c).wellFormed = true ∧ (decode c).interface = c.interface

/-- Of the rows of spec/opcode_table.json exactly one lists a code word, and it is the row of the decoded instruction. -/
def Obligations.ExactlyOneTableRowListsEachCodeWord : Prop :=
  ∀ c : CodeWord,
    (opcodeTable.filter (fun row => row.matches c.interface c.selector)).map (fun row => row.mnemonic)
      = [(decode c).mnemonic]

/-- Words written out from the tables of R122, R123 and R125 decode to the operations those tables list. -/
def Obligations.ListedWordsDecodeAsTabled : Prop :=
  decode (.txn ⟨0b000#3, 0x0000_013F#32, 0#32⟩) = .rd8 0x0000_013F#32 ∧
  decode (.txn ⟨0b010#3, 0x0000_0004#32, 0#32⟩) = .rd32 0x0000_0004#32 ∧
  decode (.txn ⟨0b100#3, 0x8000_0FFF#32, 0x0000_00AB#32⟩) = .wr8 0x8000_0FFF#32 0x0000_00AB#32 ∧
  decode (.txn ⟨0b110#3, 0x8000_0000#32, 0x6162_6300#32⟩) = .wr32 0x8000_0000#32 0x6162_6300#32 ∧
  decode (.txn ⟨0b011#3, 0x0000_0008#32, 0#32⟩) = .rsvdSize 0b011#3 0x0000_0008#32 0#32 ∧
  decode (.ctrlCmd 0xFFFF_FFF0#32) = .nop true ∧
  decode (.ctrlCmd 0x0000_0101#32) = .start true ∧
  decode (.ctrlCmd 0x0000_0002#32) = .clear false ∧
  decode (.ctrlCmd 0x0000_0103#32) = .rsvdCmd3 true ∧
  decode (.phase 0b010#3) = .round ∧
  decode (.phase 0b110#3) = .rsvdPhase 0b110#3

/-- A pending host request is the next event, and the step runs the instruction it decodes to on the state without it; a WR32
to CTRL is decoded by its command, every other request by its descriptor (R122, R129). -/
def Obligations.StepRunsThePendingRequest : Prop :=
  ∀ (s : State) (q : Request) (rest : List Event), s.fault = none → s.inputs = .request q :: rest →
    step s = exec (decode (codeOfRequest q)) { s with inputs := rest } ∧
    codeOfRequest q =
      (if q.desc = 0b110#3 ∧ q.addr = 0x0000_0000#32 then .ctrlCmd q.wdata else .txn q)

/-- A core step runs the micro-operation that PHASE encodes: when a clock edge is the next pending event, and when no event is
pending (R125, R288). That the next event is a core step when none is pending is the model's choice (log entry 2). -/
def Obligations.CoreStepRunsTheMicroOpOfPhase : Prop :=
  ∀ s : State, s.fault = none →
    (s.inputs = [] → step s = exec (decode (.phase s.phase)) s) ∧
    (∀ rest, s.inputs = .clock :: rest → step s = exec (decode (.phase s.phase)) { s with inputs := rest })

/-- A model fault writes the fault mark and nothing else; a marked state takes no further event, and no event clears the mark,
CLEAR and reset included (R48, R357). That a fault is the outcome `.fault` and that `settle` is the state it leaves is the
model's form of the rule (log entry 4). -/
def Obligations.FaultMarkIsStickyAndQuiescent : Prop :=
  ∀ (s : State) (r : Fault),
    (s.fault = some r → step s = .fault r ∧ s.settle = s) ∧
    (step s = .fault r → s.settle = { s with fault := some r }) ∧
    (∀ t, step s = .next t → t.fault = none)

/-- Reset, from any state without a fault mark: every element takes the value R390 lists, every message cell becomes
unwritten, the fault mark stays as it is, and STATUS, CTRL and irq then read 0. The capacity, the response port and the
events still pending are not the core's to reset (log entries 1 to 3). -/
def Obligations.ResetEventSetsTheListedValues : Prop :=
  ∀ (s : State) (rest : List Event), s.fault = none → s.inputs = .reset :: rest →
    ∃ t, step s = .next t ∧
      t = { s with
        h := Vector.replicate 8 0#32, vars := ⟨0, 0, 0, 0, 0, 0, 0, 0⟩, w := Vector.replicate 64 0#32, t := 0#6,
        blkcnt := 0#32, nblk := 0#32, phase := 0#3, errcode := 0#4, ie := false, lenHi := 0#32, lenLo := 0#32,
        msg := t.msg, inputs := rest } ∧
      (∀ k, t.msgCell k = none) ∧ t.status = 0#32 ∧ t.ctrlValue = 0#32 ∧ t.irq = false

/-- The state after reset holds the values of R50. That the fault mark is absent in it is the model's choice (log entry 13);
the capacity, log entry 1's, is not stated. -/
def Obligations.ResetStateHoldsTheListedValues : Prop :=
  (∀ i : Fin 8, State.reset.h[i] = 0#32) ∧ State.reset.vars = ⟨0, 0, 0, 0, 0, 0, 0, 0⟩ ∧
  (∀ i : Fin 64, State.reset.w[i] = 0#32) ∧ State.reset.t = 0#6 ∧ State.reset.phase = 0#3 ∧
  State.reset.blkcnt = 0#32 ∧ State.reset.nblk = 0#32 ∧ State.reset.errcode = 0#4 ∧ State.reset.ie = false ∧
  State.reset.lenHi = 0#32 ∧ State.reset.lenLo = 0#32 ∧ (∀ k, State.reset.msgCell k = none) ∧
  State.reset.fault = none ∧ State.reset.irq = false

/-- The invariant holds in the state after reset. -/
def Obligations.ResetStateMeetsTheInvariant : Prop := State.reset.Inv

/-- From every state that meets the invariant, every event that gives a next state keeps it: canonical bounded message memory,
a legal capacity and PHASE, ERRCODE and t as their phases have them, a running job's length and chunk counts, zero job state
in IDLE and ERROR. -/
def Obligations.EveryStepKeepsTheInvariant : Prop :=
  ∀ s t : State, s.Inv → step s = .next t → t.Inv

/-- The sequencer's only transitions (R291): a core step moves PHASE as R281 to R286 say; a host transaction moves it only by
START, from a phase that is not BUSY to LOAD or ERROR, or by CLEAR, to IDLE; reset moves it to IDLE. In states that no run
reaches this is the model's choice: FOLD compares BLKCNT + 1 with NBLK in 32 bits, BLKCNT = 0xFFFF_FFFF included (log entry 7),
and START is accepted in PHASE 6 and 7, which R291 does not list (log entry 8). -/
def Obligations.PhaseMovesOnlyAsTheSequencerAllows : Prop :=
  ∀ s t : State, step s = .next t →
    match s.nextEvent with
    | .clock =>
      t.phase =
        if s.phase = phaseLoad then phaseRound
        else if s.phase = phaseRound then (if s.t = 63#6 then phaseFold else phaseRound)
        else if s.phase = phaseFold then (if s.blkcnt + 1#32 = s.nblk then phaseDone else phaseLoad)
        else s.phase
    | .request q =>
      t.phase = s.phase ∨
      (∃ ie, requestInstr q = .start ie ∧ s.busy = false ∧ (t.phase = phaseLoad ∨ t.phase = phaseError)) ∨
      (∃ ie, requestInstr q = .clear ie ∧ t.phase = phaseIdle)
    | .reset => t.phase = phaseIdle

/-! ### Word functions and constant stores -/

/-- The bit forms of rotate right and of the logical shift right, for the amounts 1 to 31, and the arithmetic form of the
shift (R12, R13). The spec marks both formulas as general knowledge. -/
def Obligations.RotateAndShiftMoveBits : Prop :=
  ∀ (x : Word) (n : Nat), 1 ≤ n → n ≤ 31 →
    (∀ i, i < 32 → (rotr x n).getLsbD i = x.getLsbD ((i + n) % 32)) ∧
    (∀ i, i < 32 → (shr x n).getLsbD i = if i + n ≤ 31 then x.getLsbD (i + n) else false) ∧
    (shr x n).toNat = x.toNat / 2 ^ n

/-- σ0 and σ1, with the corner cases and the example of R190 and R191. -/
def Obligations.SmallSigmasAreTheirFormulas : Prop :=
  (∀ x : Word, smallSigma0 x = rotr x 7 ^^^ rotr x 18 ^^^ shr x 3) ∧
  (∀ x : Word, smallSigma1 x = rotr x 17 ^^^ rotr x 19 ^^^ shr x 10) ∧
  smallSigma0 0#32 = 0#32 ∧ smallSigma0 0xFFFF_FFFF#32 = 0x1FFF_FFFF#32 ∧
  smallSigma0 0x8000_0000#32 = 0x1100_2000#32 ∧ smallSigma0 0x1234_5678#32 = 0xE7FC_E6EE#32 ∧
  smallSigma1 0#32 = 0#32 ∧ smallSigma1 0xFFFF_FFFF#32 = 0x003F_FFFF#32 ∧
  smallSigma1 1#32 = 0x0000_A000#32 ∧ smallSigma1 0x1234_5678#32 = 0xA1F7_8649#32

/-- Σ1, Ch, Σ0 and Maj, with the corner cases and examples of R220, R221, R223 and R224. -/
def Obligations.RoundFunctionsAreTheirFormulas : Prop :=
  (∀ e : Word, bigSigma1 e = rotr e 6 ^^^ rotr e 11 ^^^ rotr e 25) ∧
  bigSigma1 0#32 = 0#32 ∧ bigSigma1 0xFFFF_FFFF#32 = 0xFFFF_FFFF#32 ∧ bigSigma1 1#32 = 0x0420_0080#32 ∧
  bigSigma1 0x510E_527F#32 = 0x3587_272B#32 ∧
  (∀ e f g : Word, ch e f g = (e &&& f) ^^^ (~~~e &&& g)) ∧
  (∀ f g : Word, ch 0#32 f g = g ∧ ch 0xFFFF_FFFF#32 f g = f) ∧
  ch 0x510E_527F#32 0x9B05_688C#32 0x1F83_D9AB#32 = 0x1F85_C98C#32 ∧
  (∀ a : Word, bigSigma0 a = rotr a 2 ^^^ rotr a 13 ^^^ rotr a 22) ∧
  bigSigma0 0#32 = 0#32 ∧ bigSigma0 0xFFFF_FFFF#32 = 0xFFFF_FFFF#32 ∧ bigSigma0 1#32 = 0x4008_0400#32 ∧
  bigSigma0 0x6A09_E667#32 = 0xCE20_B47E#32 ∧
  (∀ a b c : Word, maj a b c = (a &&& b) ^^^ (a &&& c) ^^^ (b &&& c)) ∧
  (∀ x y : Word, maj x x y = x ∧ maj 0#32 0#32 y = 0#32) ∧
  maj 0x6A09_E667#32 0xBB67_AE85#32 0x3C6E_F372#32 = 0x3A6F_E667#32

/-- The gate-level forms: each output bit of σ0, σ1, Σ0 and Σ1 is an exclusive-or of input bits, Ch is a choice and Maj a
majority of bits (R197, R230 and the bit forms of R221 and R224, all derived in the spec). -/
def Obligations.RoundLogicActsBitwise : Prop :=
  (∀ (e f g : Word) (i : Nat), (ch e f g).getLsbD i = if e.getLsbD i then f.getLsbD i else g.getLsbD i) ∧
  (∀ (a b c : Word) (i : Nat), (maj a b c).getLsbD i =
    ((a.getLsbD i && b.getLsbD i) || (a.getLsbD i && c.getLsbD i) || (b.getLsbD i && c.getLsbD i))) ∧
  ∀ (x : Word) (i : Nat), i < 32 →
    (smallSigma0 x).getLsbD i =
      ((x.getLsbD ((i + 7) % 32) ^^ x.getLsbD ((i + 18) % 32)) ^^ (if i ≤ 28 then x.getLsbD (i + 3) else false)) ∧
    (smallSigma1 x).getLsbD i =
      ((x.getLsbD ((i + 17) % 32) ^^ x.getLsbD ((i + 19) % 32)) ^^ (if i ≤ 21 then x.getLsbD (i + 10) else false)) ∧
    (bigSigma1 x).getLsbD i =
      ((x.getLsbD ((i + 6) % 32) ^^ x.getLsbD ((i + 11) % 32)) ^^ x.getLsbD ((i + 25) % 32)) ∧
    (bigSigma0 x).getLsbD i =
      ((x.getLsbD ((i + 2) % 32) ^^ x.getLsbD ((i + 13) % 32)) ^^ x.getLsbD ((i + 22) % 32))

/-- Each K ROM word is floor_cuberoot(p·2^96) mod 2^32 for its prime, and each IV word is floor_sqrt(p·2^64) mod 2^32; the
primes are the first 64 (the definitions of R41 and R42; the spec marks the tables as derived from them). -/
def Obligations.ConstantStoresAreRootFractions : Prop :=
  primes.length = 64 ∧ (∀ p ∈ primes, p.Prime) ∧ (∀ p, p.Prime → p ≤ 311 → p ∈ primes) ∧
  primes.Pairwise (fun p q => p < q) ∧
  (∀ i : Fin 64, ∃ r, r ^ 3 ≤ primes.getD i 0 * 2 ^ 96 ∧ primes.getD i 0 * 2 ^ 96 < (r + 1) ^ 3 ∧
    (kWord (BitVec.ofNat 6 i)).toNat = r % 2 ^ 32) ∧
  (∀ i : Fin 8, ∃ r, r ^ 2 ≤ primes.getD i 0 * 2 ^ 64 ∧ primes.getD i 0 * 2 ^ 64 < (r + 1) ^ 2 ∧
    ivTable[i].toNat = r % 2 ^ 32)

/-! ### Padding and packing -/

/-- toBits, fromBits and pack place bits most significant first, and fromBits undoes toBits (R160, R161, R166). -/
def Obligations.BitCodecAndPackerPlaceBitsMsbFirst : Prop :=
  (∀ bytes : List Byte, (toBits bytes).length = 8 * bytes.length ∧ fromBits (toBits bytes) = bytes ∧
    ∀ k i, k < bytes.length → i ≤ 7 → (toBits bytes)[8 * k + i]? = (bytes[k]?).map (fun b => b.getLsbD (7 - i))) ∧
  (∀ bits : List Bool, bits.length % 8 = 0 → (fromBits bits).length = bits.length / 8 ∧
    ∀ k, k < bits.length / 8 → ((fromBits bits)[k]?).map (fun b => b.toNat) =
      some (∑ i ∈ Finset.range 8, if bits[8 * k + i]? = some true then 2 ^ (7 - i) else 0)) ∧
  (∀ bits : List Bool, bits.length % 32 = 0 → (packWords bits).length = bits.length / 32 ∧
    ∀ w, w < bits.length / 32 → ((packWords bits)[w]?).map (fun v => v.toNat) =
      some (∑ j ∈ Finset.range 32, if bits[32 * w + j]? = some true then 2 ^ (31 - j) else 0))

/-- A padded message is the message's bits, a 1 bit, Z = (447 - 8L) mod 512 zero bits and the 64-bit big-endian bit length,
and is 512·N bits long with N = (L + 8) div 64 + 1 (the loop of R162; Z and N are derived in the spec, R163 and R164). -/
def Obligations.PaddingFillsWholeChunks : Prop :=
  ∀ bytes : List Byte, 8 * bytes.length < 2 ^ 64 →
    (∃ z : Nat, (z : Int) = (447 - 8 * (bytes.length : Int)) % 512 ∧ 7 ≤ z ∧
      padBits bytes = toBits bytes ++ [true] ++ List.replicate z false ++
        (List.range 64).map (fun i => (8 * bytes.length).testBit (63 - i))) ∧
    (padBits bytes).length = 512 * ((bytes.length + 8) / 64 + 1)

/-- The byte-level padding function that LOAD computes is the bytes of the bit-level padded message (R165, derived in the
spec). -/
def Obligations.PaddedByteIsByteOfPad : Prop :=
  ∀ (bytes : List Byte) (msg : Nat → Option Byte), bytes.length < 2 ^ 61 →
    (∀ k, k < bytes.length → msg k = bytes[k]?) →
    ∀ k, k < 64 * chunkCount bytes.length →
      ∃ b, padByte msg bytes.length (chunkCount bytes.length) k = some b ∧ (fromBits (padBits bytes))[k]? = some b

/-- Word j of chunk b that LOAD computes is word 16b + j of the packed padded message (R167, derived in the spec). -/
def Obligations.ChunkWordIsWordOfPackedPad : Prop :=
  ∀ (bytes : List Byte) (msg : Nat → Option Byte), bytes.length < 2 ^ 61 →
    (∀ k, k < bytes.length → msg k = bytes[k]?) →
    ∀ b j, b < chunkCount bytes.length → j < 16 →
      ∃ v, chunkWord msg bytes.length (chunkCount bytes.length) b j = some v ∧
        (packWords (padBits bytes))[16 * b + j]? = some v

/-! ### Schedule and rounds -/

/-- The schedule of a chunk: its 16 words unchanged, then the recurrence; the corner cases and the example of R192. -/
def Obligations.ScheduleFollowsTheRecurrence : Prop :=
  (∀ chunk : List Word, chunk.length = 16 → (schedule chunk).length = 64 ∧
    (∀ i, i < 16 → (schedule chunk)[i]? = chunk[i]?) ∧
    (∀ t, 16 ≤ t → t ≤ 63 → (schedule chunk)[t]? =
      some ((schedule chunk).getD (t - 16) 0 + smallSigma0 ((schedule chunk).getD (t - 15) 0) +
        (schedule chunk).getD (t - 7) 0 + smallSigma1 ((schedule chunk).getD (t - 2) 0)))) ∧
  schedule (List.replicate 16 0#32) = List.replicate 64 0#32 ∧
  (schedule (List.replicate 16 0xFFFF_FFFF#32))[16]? = some 0x203F_FFFC#32 ∧
  (schedule (List.replicate 16 0xFFFF_FFFF#32))[17]? = some 0x203F_FFFC#32 ∧
  (schedule ([0x6162_6380#32] ++ List.replicate 14 0#32 ++ [0x18#32]))[16]? = some 0x6162_6380#32 ∧
  (schedule ([0x6162_6380#32] ++ List.replicate 14 0#32 ++ [0x18#32]))[17]? = some 0x000F_0000#32

/-- T1, T2 and the round state update, with the corner cases and the example of R222, R225 and R226. -/
def Obligations.RoundUpdatesTheWorkingVariables : Prop :=
  (∀ (v : Vars) (k wt : Word),
    temp1 v k wt = v.h + bigSigma1 v.e + ch v.e v.f v.g + k + wt ∧
    temp2 v = maj v.a v.b v.c + bigSigma0 v.a ∧
    roundVars v k wt =
      ⟨temp1 v k wt + temp2 v, v.a, v.b, v.c, v.d + temp1 v k wt, v.e, v.f, v.g⟩) ∧
  (∀ a b c : Word, maj a b c = 0xFFFF_FFFF#32 → bigSigma0 a = 0xFFFF_FFFF#32 →
    temp2 ⟨a, b, c, 0, 0, 0, 0, 0⟩ = 0xFFFF_FFFE#32) ∧
  roundVars ⟨0, 0, 0, 0, 0, 0, 0, 0⟩ (kWord 0#6) 0#32 = ⟨0x428A_2F98, 0, 0, 0, 0x428A_2F98, 0, 0, 0⟩ ∧
  (let o := 0xFFFF_FFFF#32
   temp1 ⟨o, o, o, o, o, o, o, o⟩ (kWord 0#6) o = kWord 0#6 - 4#32 ∧
   roundVars ⟨o, o, o, o, o, o, o, o⟩ (kWord 0#6) o = ⟨0x428A_2F92, o, o, o, 0x428A_2F93, o, o, o⟩) ∧
  temp1 (varsOfH ivTable) (kWord 0#6) 0x6162_6380#32 = 0x54DA_50E8#32 ∧
  temp2 (varsOfH ivTable) = 0x0890_9AE5#32 ∧
  roundVars (varsOfH ivTable) (kWord 0#6) 0x6162_6380#32 =
    ⟨0x5D6A_EBCD, 0x6A09_E667, 0xBB67_AE85, 0x3C6E_F372, 0xFA2A_4622, 0x510E_527F, 0x9B05_688C, 0x1F83_D9AB⟩

/-- Sixty-four core steps from ROUND with t = 0 perform the 64 rounds on the schedule of W[0..15]: W becomes that schedule,
a..h are what the rounds make of them, PHASE is FOLD with t = 63, and nothing else changes (R194, derived in the spec). -/
def Obligations.SixtyFourRoundsExpandAndCompress : Prop :=
  ∀ s : State, s.fault = none → s.inputs = [] → s.phase = phaseRound → s.t = 0#6 →
    ∃ u, Host.Core.run Sys2Proof.core 64 s = .next u ∧
      u.w.toList = schedule (s.w.toList.take 16) ∧
      u = { s with
        w := u.w, vars := runRounds (schedule (s.w.toList.take 16)) 64 s.vars, t := 63#6, phase := phaseFold }

/-- Sixty-six core steps from LOAD compress one chunk: H becomes compress(H, schedule(M(b, 0..15))), BLKCNT counts the chunk,
and the core goes on to the next chunk or to DONE (R227, R229, derived in the spec). That BLKCNT + 1 is compared with NBLK in
32 bits, BLKCNT = 0xFFFF_FFFF included, is the model's choice (log entry 7). -/
def Obligations.ChunkStepsCompress : Prop :=
  ∀ (s : State) (chunk : List Word), s.fault = none → s.inputs = [] → s.phase = phaseLoad → chunk.length = 16 →
    (∀ j, j < 16 → chunkWord s.msgCell s.len s.nblk.toNat s.blkcnt.toNat j = chunk[j]?) →
    ∃ u, Host.Core.run Sys2Proof.core 66 s = .next u ∧
      u.h = compress s.h (schedule chunk) ∧
      u = { s with
        h := u.h, vars := u.vars, w := u.w, t := 0#6, blkcnt := s.blkcnt + 1#32,
        phase := if s.blkcnt + 1#32 = s.nblk then phaseDone else phaseLoad }

/-- CORRECTNESS. An accepted START on a written message of L bytes runs 66·N core steps to DONE, and the digest bytes are then
Sum of the message (R289, derived in the spec). -/
def Obligations.JobComputesSum : Prop :=
  ∀ (s : State) (ie : Bool) (bytes : List Byte), s.fault = none → s.inputs = [] →
    (s.phase = phaseIdle ∨ s.phase = phaseDone ∨ s.phase = phaseError) →
    s.CapacityLegal → s.len = bytes.length → bytes.length ≤ s.msgBytes.toNat → s.HoldsMessage bytes →
    ∃ s₁ u, exec (.start ie) s = .next s₁ ∧
      Host.Core.run Sys2Proof.core (66 * chunkCount bytes.length) s₁ = .next u ∧
      u.phase = phaseDone ∧ serialise u.h = sumBytes bytes

/-- The same whatever host transactions are interleaved with the 66·N core steps, as long as none is a CLEAR and none reads an
unwritten message cell (R289, derived in the spec). -/
def Obligations.InterleavedJobComputesSum : Prop :=
  ∀ (s : State) (bytes : List Byte) (events : List Event), s.JobStarted bytes →
    (∀ e ∈ events, s.Undisturbing e) → events.count .clock + 1 = 66 * chunkCount bytes.length →
    ∃ u, Host.Core.run Sys2Proof.core (events.length + 1) { s with inputs := events ++ [.clock] } = .next u ∧
      u.phase = phaseDone ∧ serialise u.h = sumBytes bytes

/-- Where a job stands after its k-th core step (R402, derived in the spec). -/
def Obligations.JobProgressAfterEachStep : Prop :=
  ∀ (s : State) (bytes : List Byte) (k : Nat), s.JobStarted bytes → s.inputs = [] →
    1 ≤ k → k ≤ 66 * chunkCount bytes.length →
    ∃ u, Host.Core.run Sys2Proof.core k s = .next u ∧
      (let b := (k - 1) / 66
       let r := (k - 1) % 66
       if r ≤ 63 then u.phase = phaseRound ∧ u.t.toNat = r ∧ u.blkcnt.toNat = b
       else if r = 64 then u.phase = phaseFold ∧ u.t = 63#6 ∧ u.blkcnt.toNat = b
       else u.blkcnt.toNat = b + 1 ∧ u.t = 0#6 ∧
        u.phase = if b + 1 = chunkCount bytes.length then phaseDone else phaseLoad)

/-- Isolation: what START leaves is a function of LEN, MSG, the capacity and the write's IE bit; nothing of an earlier job
reaches the next one (R290, derived in the spec). The premise admits PHASE 6 and 7 beside IDLE, DONE and ERROR: that START is
accepted there, in states that no run reaches, is the model's choice (log entry 8). -/
def Obligations.StartForgetsEarlierJobs : Prop :=
  ∀ (s s' : State) (ie : Bool), s.busy = false → s'.busy = false →
    s.lenHi = s'.lenHi → s.lenLo = s'.lenLo → s.msg = s'.msg → s.msgBytes = s'.msgBytes →
    s.fault = s'.fault → s.inputs = s'.inputs →
    ∃ t, exec (.start ie) s = .next t ∧ exec (.start ie) s' = .next t

/-! ### Micro-operations -/

/-- IDLE, DONE and ERROR change nothing, however often the core steps in them, and are left only by START, CLEAR or reset
(R281, R285, R286). -/
def Obligations.RestingPhasesHold : Prop :=
  (∀ s : State, exec .idle s = .next s ∧ exec .done s = .next s ∧ exec .error s = .next s) ∧
  (∀ (s : State) (n : Nat), s.fault = none → s.inputs = [] →
    (s.phase = phaseIdle ∨ s.phase = phaseDone ∨ s.phase = phaseError) →
    Host.Core.run Sys2Proof.core n s = .next s) ∧
  (∀ s t : State, (s.phase = phaseIdle ∨ s.phase = phaseDone ∨ s.phase = phaseError) → step s = .next t →
    t.phase ≠ s.phase →
    s.nextEvent = .reset ∨
      ∃ q ie, s.nextEvent = .request q ∧ (requestInstr q = .start ie ∨ requestInstr q = .clear ie))

/-- LOAD (R282): when every message cell of the chunk is written, W[0..15] get the chunk's words, a..h get H, t becomes 0 and
PHASE ROUND, and nothing else changes; when one is unwritten, LOAD faults. -/
def Obligations.LoadReadsTheChunk : Prop :=
  ∀ s : State,
    ((∀ k, 64 * s.blkcnt.toNat ≤ k → k < min s.len (64 * s.blkcnt.toNat + 64) → s.msgCell k ≠ none) →
      ∃ u, exec .load s = .next u ∧
        (∀ j : Fin 64, j.val < 16 →
          chunkWord s.msgCell s.len s.nblk.toNat s.blkcnt.toNat j = some u.w[j]) ∧
        (∀ j : Fin 64, 16 ≤ j.val → u.w[j] = s.w[j]) ∧
        u = { s with
          w := u.w, vars := ⟨s.h[0], s.h[1], s.h[2], s.h[3], s.h[4], s.h[5], s.h[6], s.h[7]⟩, t := 0#6,
          phase := 2#3 }) ∧
    ((∃ k, 64 * s.blkcnt.toNat ≤ k ∧ k < min s.len (64 * s.blkcnt.toNat + 64) ∧ s.msgCell k = none) →
      exec .load s = .fault .unwrittenMessageByte)

/-- LOAD does not depend on message cells at or beyond L (R318, derived in the spec). -/
def Obligations.CellsPastTheLengthDoNotReachLoad : Prop :=
  ∀ (s : State) (m : Memory), (∀ k, k < s.len → ({ s with msg := m } : State).msgCell k = s.msgCell k) →
    (∀ t, exec .load s = .next t → exec .load { s with msg := m } = .next { t with msg := m }) ∧
    (∀ f, exec .load s = .fault f → exec .load { s with msg := m } = .fault f)

/-- ROUND (R283, R193): the schedule word of round t from the old W, written to W[t] when t >= 16; the round update of a..h
from the old values, K[t] and that word; t advances below 63, and round 63 goes to FOLD. Nothing else changes. -/
def Obligations.RoundStepExpandsAndCompresses : Prop :=
  ∀ s : State, ∃ u wt, exec .round s = .next u ∧
    (s.t.toNat < 16 → wt = s.w[s.t.toNat] ∧ u.w = s.w) ∧
    (16 ≤ s.t.toNat →
      wt = wordAt s.w (s.t - 16#6) + smallSigma0 (wordAt s.w (s.t - 15#6)) + wordAt s.w (s.t - 7#6) +
        smallSigma1 (wordAt s.w (s.t - 2#6)) ∧
      u.w[s.t.toNat] = wt ∧ ∀ j : Fin 64, j.val ≠ s.t.toNat → u.w[j] = s.w[j]) ∧
    (let v := s.vars
     let t1 := v.h + bigSigma1 v.e + ch v.e v.f v.g + kWord s.t + wt
     let t2 := maj v.a v.b v.c + bigSigma0 v.a
     u.vars = ⟨t1 + t2, v.a, v.b, v.c, v.d + t1, v.e, v.f, v.g⟩) ∧
    u = { s with
      w := u.w, vars := u.vars,
      t := if s.t.toNat < 63 then s.t + 1#6 else s.t,
      phase := if s.t.toNat < 63 then s.phase else 3#3 }

/-- FOLD (R284, R228): each H word gains its working variable modulo 2^32, BLKCNT counts, t becomes 0, and PHASE becomes DONE
when the old BLKCNT + 1 is NBLK and LOAD otherwise. Nothing else changes. That BLKCNT + 1 is compared with NBLK in 32 bits,
BLKCNT = 0xFFFF_FFFF included, is the model's choice (log entry 7). -/
def Obligations.FoldStepAddsTheWorkingVariables : Prop :=
  (∀ s : State, ∃ u, exec .fold s = .next u ∧
    u.h[0] = s.h[0] + s.vars.a ∧ u.h[1] = s.h[1] + s.vars.b ∧ u.h[2] = s.h[2] + s.vars.c ∧
    u.h[3] = s.h[3] + s.vars.d ∧ u.h[4] = s.h[4] + s.vars.e ∧ u.h[5] = s.h[5] + s.vars.f ∧
    u.h[6] = s.h[6] + s.vars.g ∧ u.h[7] = s.h[7] + s.vars.h ∧
    u = { s with
      h := u.h, blkcnt := s.blkcnt + 1#32, t := 0#6,
      phase := if s.blkcnt + 1#32 = s.nblk then 4#3 else 1#3 }) ∧
  0x6A09_E667#32 + 0x506E_3058#32 = 0xBA78_16BF#32

/-- PHASE 6 and 7 (R287): no event takes a state with another PHASE to one of them, and a core step that finds one raises
Fault(ReservedPhase). -/
def Obligations.ReservedPhaseFaultsAndIsNeverWritten : Prop :=
  (∀ (s : State) (code : BitVec 3), exec (.rsvdPhase code) s = .fault .reservedPhase) ∧
  (∀ s : State, s.fault = none → s.nextEvent = .clock → 6 ≤ s.phase.toNat → step s = .fault .reservedPhase) ∧
  (∀ s t : State, s.phase.toNat ≤ 5 → step s = .next t → t.phase.toNat ≤ 5)

/-! ### Access checking -/

/-- Check (R314), by the numeric ranges of R81 and R34: the first failing test gives the response; a transaction that fails one
gets it with rdata 0 and changes nothing else (R355). -/
def Obligations.CheckAnswersTheFirstFailingTest : Prop :=
  (∀ (s : State) (rw : Access) (size : BitVec 2) (addr wdata : Word),
    checkResp rw size addr wdata s =
      (let n := 2 ^ size.toNat
       let a := addr.toNat
       let busy := s.phase = 1#3 ∨ s.phase = 2#3 ∨ s.phase = 3#3
       let cmd := wdata.toNat % 16
       if n ≠ 1 ∧ n ≠ 4 then .errSize
       else if n = 4 ∧ a % 4 ≠ 0 then .errAlign
       else if s.Unmapped a then .errUnmapped
       else if a ≤ 0x1B ∧ n = 1 then .errSize
       else if rw = .write ∧ (a = 0x04 ∨ a = 0x10 ∨ a = 0x14 ∨ a = 0x18 ∨ (0x20 ≤ a ∧ a ≤ 0x2FF)) then .errReadonly
       else if rw = .write ∧ busy ∧ (0x8000_0000 ≤ a ∨ a = 0x08 ∨ a = 0x0C) then .errBusy
       else if rw = .write ∧ a = 0x00 ∧ cmd = 1 ∧ busy then .errBusy
       else if rw = .write ∧ a = 0x00 ∧ 3 ≤ cmd then .errCmd
       else .okay)) ∧
  (∀ (s : State) (addr : Word), checkResp .read 0#2 addr 0#32 s ≠ .okay →
    exec (.rd8 addr) s = .next { s with resp := some ⟨checkResp .read 0#2 addr 0#32 s, 0#32⟩ }) ∧
  (∀ (s : State) (addr : Word), checkResp .read 2#2 addr 0#32 s ≠ .okay →
    exec (.rd32 addr) s = .next { s with resp := some ⟨checkResp .read 2#2 addr 0#32 s, 0#32⟩ }) ∧
  (∀ (s : State) (addr wdata : Word), checkResp .write 0#2 addr wdata s ≠ .okay →
    exec (.wr8 addr wdata) s = .next { s with resp := some ⟨checkResp .write 0#2 addr wdata s, 0#32⟩ }) ∧
  (∀ (s : State) (addr wdata : Word), checkResp .write 2#2 addr wdata s ≠ .okay →
    exec (.wr32 addr wdata) s = .next { s with resp := some ⟨checkResp .write 2#2 addr wdata s, 0#32⟩ }) ∧
  (∀ (s : State) (desc : BitVec 3) (addr wdata : Word), desc.getLsbD 0 = true →
    exec (.rsvdSize desc addr wdata) s = .next { s with resp := some ⟨.errSize, 0#32⟩ })

/-- A descriptor with desc[0] = 1 (sizes 2 and 8) is refused with ERR_SIZE at every address, aligned, mapped or not, and has no
other effect (R122, R314 test 1). -/
def Obligations.ReservedSizesAreRefused : Prop :=
  ∀ (s : State) (desc : BitVec 3) (addr wdata : Word), desc.getLsbD 0 = true →
    exec (.rsvdSize desc addr wdata) s = .next { s with resp := some ⟨.errSize, 0#32⟩ }

/-! ### Reads -/

/-- RD32 of each register returns its value and changes nothing else (R310, and the register half of R315). -/
def Obligations.RegisterReadsReturnTheirValues : Prop :=
  ∀ s : State,
    exec (.rd32 0x000#32) s = .next { s with resp := some ⟨.okay, if s.ie then 0x0000_0100#32 else 0#32⟩ } ∧
    exec (.rd32 0x004#32) s = .next { s with resp := some ⟨.okay, s.status⟩ } ∧
    exec (.rd32 0x008#32) s = .next { s with resp := some ⟨.okay, s.lenHi⟩ } ∧
    exec (.rd32 0x00C#32) s = .next { s with resp := some ⟨.okay, s.lenLo⟩ } ∧
    exec (.rd32 0x010#32) s = .next { s with resp := some ⟨.okay, s.nblk⟩ } ∧
    exec (.rd32 0x014#32) s = .next { s with resp := some ⟨.okay, s.blkcnt⟩ } ∧
    exec (.rd32 0x018#32) s = .next { s with resp := some ⟨.okay, s.msgBytes⟩ }

/-- The STATUS word: each field at its place, reserved bits 0, IRQ the irq output (R44). -/
def Obligations.StatusWordPlacesItsFields : Prop :=
  ∀ s : State,
    (s.status.getLsbD 0 = true ↔ s.phase = 1#3 ∨ s.phase = 2#3 ∨ s.phase = 3#3) ∧
    (s.status.getLsbD 1 = true ↔ s.phase = 4#3) ∧
    (s.status.getLsbD 2 = true ↔ s.phase = 5#3) ∧
    (s.status.getLsbD 3 = true ↔ s.ie = true ∧ (s.phase = 4#3 ∨ s.phase = 5#3)) ∧
    s.status.extractLsb' 4 3 = s.phase ∧ s.status.extractLsb' 7 1 = 0#1 ∧
    s.status.extractLsb' 8 4 = s.errcode ∧ s.status.extractLsb' 12 4 = 0#4 ∧
    s.status.extractLsb' 16 6 = s.t ∧ s.status.extractLsb' 22 10 = 0#10 ∧
    (∀ wdata : Word, exec (.wr32 0x004#32 wdata) s = .next { s with resp := some ⟨.errReadonly, 0#32⟩ })

/-- MSGSZ returns MSG_BYTES, and no event changes it (R47). -/
def Obligations.MsgszReturnsTheCapacity : Prop :=
  (∀ s : State, exec (.rd32 0x018#32) s = .next { s with resp := some ⟨.okay, s.msgBytes⟩ }) ∧
  (∀ s t : State, step s = .next t → t.msgBytes = s.msgBytes)

/-- The HREG window: byte d of the digest, most significant byte of H[d div 4] first, and H[i] itself as a word; writes are
refused (R264, and R260 for the bytes). -/
def Obligations.HregWindowShowsTheDigest : Prop :=
  ∀ s : State,
    (∀ d : Fin 32, exec (.rd8 (BitVec.ofNat 32 (0x020 + d.val))) s =
      .next { s with resp := some ⟨.okay,
        ((s.h[d.val / 4]'(by omega)) >>> (24 - 8 * (d.val % 4))) &&& 0xFF#32⟩ }) ∧
    (∀ i : Fin 8, exec (.rd32 (BitVec.ofNat 32 (0x020 + 4 * i.val))) s =
      .next { s with resp := some ⟨.okay, s.h[i]⟩ }) ∧
    (∀ (d : Fin 32) (wdata : Word), exec (.wr8 (BitVec.ofNat 32 (0x020 + d.val)) wdata) s =
      .next { s with resp := some ⟨.errReadonly, 0#32⟩ }) ∧
    (∀ (i : Fin 8) (wdata : Word), exec (.wr32 (BitVec.ofNat 32 (0x020 + 4 * i.val)) wdata) s =
      .next { s with resp := some ⟨.errReadonly, 0#32⟩ })

/-- The digest bytes, the hexadecimal characters and the bit characters as functions of H (R260, R261, R263, with the codes of
R262). -/
def Obligations.DigestCharactersFollowTheDigestBytes : Prop :=
  ∀ h : Vector Word 8,
    (∀ d : Fin 32, (digestByte h d).toNat =
      (h[d.val / 4]'(by omega)).toNat / 2 ^ (24 - 8 * (d.val % 4)) % 256) ∧
    (∀ n : Fin 64,
      let byte := (digestByte h ⟨n.val / 2, by omega⟩).toNat
      let nibble := if n.val % 2 = 0 then byte / 16 else byte % 16
      (hexDigit h n).toNat = if nibble ≤ 9 then 0x30 + nibble else 0x61 + (nibble - 10)) ∧
    (∀ n : Fin 256,
      (bitDigit h n).toNat = 0x30 + (digestByte h ⟨n.val / 8, by omega⟩).toNat / 2 ^ (7 - n.val % 8) % 2)

/-- The HEX and BITS windows: one character a byte, four characters a word with the first in bits 31:24; writes are refused
(R265, R266). -/
def Obligations.TextWindowsShowTheCharacters : Prop :=
  ∀ s : State,
    (∀ n : Fin 64, exec (.rd8 (BitVec.ofNat 32 (0x100 + n.val))) s =
      .next { s with resp := some ⟨.okay, (hexDigit s.h n).setWidth 32⟩ }) ∧
    (∀ q : Fin 16, exec (.rd32 (BitVec.ofNat 32 (0x100 + 4 * q.val))) s =
      .next { s with resp := some ⟨.okay,
        ((hexDigit s.h ⟨4 * q.val, by omega⟩).setWidth 32 <<< 24) |||
        ((hexDigit s.h ⟨4 * q.val + 1, by omega⟩).setWidth 32 <<< 16) |||
        ((hexDigit s.h ⟨4 * q.val + 2, by omega⟩).setWidth 32 <<< 8) |||
        (hexDigit s.h ⟨4 * q.val + 3, by omega⟩).setWidth 32⟩ }) ∧
    (∀ n : Fin 256, exec (.rd8 (BitVec.ofNat 32 (0x200 + n.val))) s =
      .next { s with resp := some ⟨.okay, (bitDigit s.h n).setWidth 32⟩ }) ∧
    (∀ q : Fin 64, exec (.rd32 (BitVec.ofNat 32 (0x200 + 4 * q.val))) s =
      .next { s with resp := some ⟨.okay,
        ((bitDigit s.h ⟨4 * q.val, by omega⟩).setWidth 32 <<< 24) |||
        ((bitDigit s.h ⟨4 * q.val + 1, by omega⟩).setWidth 32 <<< 16) |||
        ((bitDigit s.h ⟨4 * q.val + 2, by omega⟩).setWidth 32 <<< 8) |||
        (bitDigit s.h ⟨4 * q.val + 3, by omega⟩).setWidth 32⟩ }) ∧
    (∀ (n : Nat) (wdata : Word), n < 64 → exec (.wr8 (BitVec.ofNat 32 (0x100 + n)) wdata) s =
      .next { s with resp := some ⟨.errReadonly, 0#32⟩ }) ∧
    (∀ (q : Nat) (wdata : Word), q < 16 → exec (.wr32 (BitVec.ofNat 32 (0x100 + 4 * q)) wdata) s =
      .next { s with resp := some ⟨.errReadonly, 0#32⟩ }) ∧
    (∀ (n : Nat) (wdata : Word), n < 256 → exec (.wr8 (BitVec.ofNat 32 (0x200 + n)) wdata) s =
      .next { s with resp := some ⟨.errReadonly, 0#32⟩ }) ∧
    (∀ (q : Nat) (wdata : Word), q < 64 → exec (.wr32 (BitVec.ofNat 32 (0x200 + 4 * q)) wdata) s =
      .next { s with resp := some ⟨.errReadonly, 0#32⟩ })

/-- No read has a side effect: a read that completes leaves every element of the core as it was, and the same read repeated
returns the same response (R91). Only the response port, which is not the core's, holds the data (log entry 3). -/
def Obligations.ReadsChangeNothing : Prop :=
  ∀ (s t : State) (i : Instr), (∃ addr, i = .rd8 addr ∨ i = .rd32 addr) → exec i s = .next t →
    s.SameCore t ∧ exec i t = .next t

/-! ### Message memory -/

/-- Host reads of MSG (R87): a written cell returns its byte, four written cells their word with the lowest index in bits
31:24, and a read that covers an unwritten cell faults. -/
def Obligations.MessageReadsReturnWrittenCells : Prop :=
  ∀ (s : State) (k : Nat), s.msgBytes.toNat ≤ 2 ^ 31 →
    (∀ b, s.msgCell k = some b →
      exec (.rd8 (BitVec.ofNat 32 (0x8000_0000 + k))) s = .next { s with resp := some ⟨.okay, b.setWidth 32⟩ }) ∧
    (k < s.msgBytes.toNat → s.msgCell k = none →
      exec (.rd8 (BitVec.ofNat 32 (0x8000_0000 + k))) s = .fault .unwrittenMessageRead) ∧
    (k % 4 = 0 → ∀ b0 b1 b2 b3, s.msgCell k = some b0 → s.msgCell (k + 1) = some b1 → s.msgCell (k + 2) = some b2 →
      s.msgCell (k + 3) = some b3 →
      exec (.rd32 (BitVec.ofNat 32 (0x8000_0000 + k))) s =
        .next { s with resp := some ⟨.okay, b0 ++ b1 ++ b2 ++ b3⟩ }) ∧
    (k % 4 = 0 → k < s.msgBytes.toNat →
      (s.msgCell k = none ∨ s.msgCell (k + 1) = none ∨ s.msgCell (k + 2) = none ∨ s.msgCell (k + 3) = none) →
      exec (.rd32 (BitVec.ofNat 32 (0x8000_0000 + k))) s = .fault .unwrittenMessageRead)

/-- Host writes of MSG while not BUSY (R312, R313, R87): one byte, or four with bits 31:24 at the lowest index; every other
cell reads as before and nothing else changes. -/
def Obligations.MessageWritesSetTheirCells : Prop :=
  ∀ (s : State) (k : Nat) (wdata : Word), s.CapacityLegal → s.busy = false → k < s.msgBytes.toNat →
    (∃ t, exec (.wr8 (BitVec.ofNat 32 (0x8000_0000 + k)) wdata) s = .next t ∧
      t = { s with msg := t.msg, resp := some ⟨.okay, 0#32⟩ } ∧
      ∀ j, t.msgCell j = if j = k then some (wdata.extractLsb' 0 8) else s.msgCell j) ∧
    (k % 4 = 0 →
      ∃ t, exec (.wr32 (BitVec.ofNat 32 (0x8000_0000 + k)) wdata) s = .next t ∧
        t = { s with msg := t.msg, resp := some ⟨.okay, 0#32⟩ } ∧
        ∀ j, t.msgCell j =
          if j = k then some (wdata.extractLsb' 24 8)
          else if j = k + 1 then some (wdata.extractLsb' 16 8)
          else if j = k + 2 then some (wdata.extractLsb' 8 8)
          else if j = k + 3 then some (wdata.extractLsb' 0 8)
          else s.msgCell j)

/-- Mixed widths (R85, derived in the spec): after a 4-byte write, the 1-byte reads of its addresses return the word's bytes,
most significant first, and the 4-byte read returns the word. -/
def Obligations.MixedWidthAccessesAgree : Prop :=
  ∀ (s t : State) (addr wdata : Word), s.CapacityLegal → 0x8000_0000 ≤ addr.toNat →
    exec (.wr32 addr wdata) s = .next t → t.resp = some ⟨.okay, 0#32⟩ →
    (∀ i, i < 4 → exec (.rd8 (addr + BitVec.ofNat 32 i)) t =
      .next { t with resp := some ⟨.okay, (wdata >>> (24 - 8 * i)) &&& 0xFF#32⟩ }) ∧
    exec (.rd32 addr) t = .next { t with resp := some ⟨.okay, wdata⟩ }

/-- Every instruction but WR8 and WR32 to MSG leaves every message cell as it was, the core steps and the commands included
(R87), and the two writes leave every cell outside the bytes they store as it was; the cell index stored at is the address
less MSG_BASE. -/
def Obligations.OnlyMessageWritesTouchMessageCells : Prop :=
  ∀ (i : Instr) (s t : State), exec i s = .next t →
    ((∀ addr wdata, i ≠ .wr8 addr wdata ∧ i ≠ .wr32 addr wdata) → ∀ k, t.msgCell k = s.msgCell k) ∧
    (∀ addr wdata, i = .wr8 addr wdata → ∀ k, k ≠ addr.toNat - msgBase → t.msgCell k = s.msgCell k) ∧
    (∀ addr wdata, i = .wr32 addr wdata →
      ∀ k, (k < addr.toNat - msgBase ∨ addr.toNat - msgBase + 3 < k) → t.msgCell k = s.msgCell k) ∧
    (∀ addr wdata, (i = .wr8 addr wdata ∨ i = .wr32 addr wdata) → addr.toNat < msgBase → t.msg = s.msg)

/-! ### Register writes and commands -/

/-- LEN writes while not BUSY store wdata and change nothing else, whatever length results (R317). -/
def Obligations.LengthWritesStoreTheirHalf : Prop :=
  ∀ (s : State) (wdata : Word), s.busy = false →
    exec (.wr32 0x008#32 wdata) s = .next { s with lenHi := wdata, resp := some ⟨.okay, 0#32⟩ } ∧
    exec (.wr32 0x00C#32 wdata) s = .next { s with lenLo := wdata, resp := some ⟨.okay, 0#32⟩ }

/-- A WR32 to CTRL is the command its data encodes, whatever the ignored bits (R316, R123). That a command constructor means
the whole transaction, Check's refusals included, is the model's reading (log entry 11). -/
def Obligations.CtrlWriteIsItsCommand : Prop :=
  ∀ (s : State) (wdata : Word), exec (.wr32 0x000#32 wdata) s = exec (decodeCommand wdata) s

/-- NOP, in every PHASE, sets IE and changes nothing else (R320). -/
def Obligations.NopSetsInterruptEnableOnly : Prop :=
  ∀ (s : State) (ie : Bool), exec (.nop ie) s = .next { s with ie := ie, resp := some ⟨.okay, 0#32⟩ }

/-- START (R321): refused with ERR_BUSY while BUSY; from IDLE, DONE and ERROR it rejects L >= 2^61 with ERRCODE 1, else
L > MSG_BYTES with ERRCODE 2, and else seeds a job of (L + 8) div 64 + 1 chunks; each branch makes exactly the listed writes. -/
def Obligations.StartSeedsOrRejectsTheJob : Prop :=
  ∀ (s : State) (ie : Bool),
    ((s.phase = 1#3 ∨ s.phase = 2#3 ∨ s.phase = 3#3) →
      exec (.start ie) s = .next { s with resp := some ⟨.errBusy, 0#32⟩ }) ∧
    ((s.phase = 0#3 ∨ s.phase = 4#3 ∨ s.phase = 5#3) →
      let L := s.lenHi.toNat * 2 ^ 32 + s.lenLo.toNat
      let zeroed : State := { s with
        h := Vector.replicate 8 0#32, vars := ⟨0, 0, 0, 0, 0, 0, 0, 0⟩, w := Vector.replicate 64 0#32, t := 0#6,
        blkcnt := 0#32, nblk := 0#32, ie := ie, resp := some ⟨.okay, 0#32⟩ }
      exec (.start ie) s = .next (
        if 2 ^ 61 ≤ L then { zeroed with errcode := 1#4, phase := 5#3 }
        else if s.msgBytes.toNat < L then { zeroed with errcode := 2#4, phase := 5#3 }
        else { zeroed with
          h := ivTable, nblk := BitVec.ofNat 32 ((L + 8) / 64 + 1), errcode := 0#4, phase := 1#3 }))

/-- With a legal capacity NBLK holds the chunk count without truncation after an accepted START (R36, R164). The premise admits
PHASE 6 and 7 beside IDLE, DONE and ERROR: that START is accepted there, in states that no run reaches, is the model's choice
(log entry 8). -/
def Obligations.AcceptedStartCountsTheChunks : Prop :=
  ∀ (s : State) (ie : Bool), s.busy = false → s.CapacityLegal → s.len ≤ s.msgBytes.toNat →
    ∃ t, exec (.start ie) s = .next t ∧ t.phase = phaseLoad ∧ t.nblk.toNat = (s.len + 8) / 64 + 1 ∧
      t.nblk.toNat ≤ 2 ^ 25 + 1 ∧ t.h = ivTable ∧ t.msg = s.msg ∧ t.lenHi = s.lenHi ∧ t.lenLo = s.lenLo

/-- CLEAR, in every PHASE, zeroes the job, sets IE and goes to IDLE; LEN and MSG are kept (R322). -/
def Obligations.ClearZeroesTheJobAndKeepsTheMessage : Prop :=
  ∀ (s : State) (ie : Bool),
    exec (.clear ie) s = .next { s with
      ie := ie, h := Vector.replicate 8 0#32, vars := ⟨0, 0, 0, 0, 0, 0, 0, 0⟩, w := Vector.replicate 64 0#32,
      t := 0#6, blkcnt := 0#32, nblk := 0#32, errcode := 0#4, phase := 0#3, resp := some ⟨.okay, 0#32⟩ }

/-- The reserved commands are refused with ERR_CMD in every PHASE and have no effect, IE included (R323). -/
def Obligations.ReservedCommandsAreRefused : Prop :=
  (∀ (s : State) (ie : Bool),
    exec (.rsvdCmd3 ie) s = .next { s with resp := some ⟨.errCmd, 0#32⟩ } ∧
    (∀ cmd : BitVec 4, 4 ≤ cmd.toNat → cmd.toNat ≤ 7 →
      exec (.rsvdCmd4to7 cmd ie) s = .next { s with resp := some ⟨.errCmd, 0#32⟩ }) ∧
    (∀ cmd : BitVec 4, 8 ≤ cmd.toNat →
      exec (.rsvdCmd8to15 cmd ie) s = .next { s with resp := some ⟨.errCmd, 0#32⟩ })) ∧
  (∀ (s : State) (wdata : Word), 3 ≤ wdata.toNat % 16 →
    exec (.wr32 0x000#32 wdata) s = .next { s with resp := some ⟨.errCmd, 0#32⟩ })

/-- Every accepted write to CTRL copies bit 8 of its data into IE, whatever the command; a refused one leaves IE unchanged; and
reset sets IE to 0 (R43). -/
def Obligations.AcceptedCtrlWritesSetInterruptEnable : Prop :=
  (∀ (s t : State) (wdata : Word), exec (.wr32 0x000#32 wdata) s = .next t →
    ∃ r, t.resp = some ⟨r, 0#32⟩ ∧ t.ie = if r = .okay then wdata.getLsbD 8 else s.ie) ∧
  (∀ s : State, s.fault = none → s.nextEvent = .reset → ∃ t, step s = .next t ∧ t.ie = false)

/-! ### Frames over all instructions -/

/-- Which operations write which state element, over every instruction that gives a next state (the "written by" column of R30
and R31 to R40): every element is unchanged unless the operation performed is one of its writers. No instruction writes the
fault mark, MSGSZ or the pending events, and only transactions write the response port. -/
def Obligations.StateElementsHaveOnlyTheirWriters : Prop :=
  ∀ (i : Instr) (s t : State), exec i s = .next t →
    let start := ∃ ie, i.performed = .start ie
    let clear := ∃ ie, i.performed = .clear ie
    let load := i.performed = .load
    let round := i.performed = .round
    let fold := i.performed = .fold
    (t.h = s.h ∨ start ∨ clear ∨ fold) ∧
    (t.vars = s.vars ∨ start ∨ clear ∨ load ∨ round) ∧
    (t.w = s.w ∨ start ∨ clear ∨ load ∨ round) ∧
    (t.t = s.t ∨ start ∨ clear ∨ load ∨ round ∨ fold) ∧
    (t.phase = s.phase ∨ start ∨ clear ∨ load ∨ round ∨ fold) ∧
    (t.blkcnt = s.blkcnt ∨ start ∨ clear ∨ fold) ∧
    (t.nblk = s.nblk ∨ start ∨ clear) ∧
    (t.errcode = s.errcode ∨ start ∨ clear) ∧
    (t.ie = s.ie ∨ start ∨ clear ∨ ∃ ie, i.performed = .nop ie) ∧
    (t.lenHi = s.lenHi ∨ ∃ wdata, i.performed = .wr32 0x008#32 wdata) ∧
    (t.lenLo = s.lenLo ∨ ∃ wdata, i.performed = .wr32 0x00C#32 wdata) ∧
    (t.msg = s.msg ∨ ∃ addr wdata, i.performed = .wr8 addr wdata ∨ i.performed = .wr32 addr wdata) ∧
    (t.resp = s.resp ∨ i.interface ≠ .phase) ∧
    t.fault = s.fault ∧ t.msgBytes = s.msgBytes ∧ t.inputs = s.inputs

/-- While BUSY no host transaction but CLEAR disturbs the job: what it leaves differs from the old state in IE and the response
port at most, and in IE only by a NOP (R96, R289 and R396; derived in the spec). -/
def Obligations.BusyJobIsUndisturbedByTheHost : Prop :=
  ∀ (s t : State) (q : Request), s.busy = true → (∀ ie, requestInstr q ≠ .clear ie) →
    exec (requestInstr q) s = .next t →
    t = { s with ie := t.ie, resp := t.resp } ∧ (t.ie = s.ie ∨ ∃ ie, requestInstr q = .nop ie)
end

