-- ==== Sys2Proof/Laws/Memory.lean ====
section
/-! SUPPORT. The message memory: reads after writes, the canonical form that every write keeps, and equality of canonical
memories by their cells. -/

namespace Sys2Proof.Machine

theorem Memory.read_write_same (m : Memory) (k : Nat) (v : Byte) : (m.write k v).read k = some v := by
  induction m with
  | nil => simp [Memory.write, Memory.read]
  | cons c rest ih =>
    obtain ⟨j, u⟩ := c
    simp only [Memory.write]
    split
    · simp [Memory.read]
    · split
      · simp [Memory.read]
      · next hne => simp [Memory.read, ih, Ne.symm hne]

theorem Memory.read_write_other (m : Memory) {k j : Nat} (v : Byte) (h : j ≠ k) :
    (m.write k v).read j = m.read j := by
  induction m with
  | nil => simp [Memory.write, Memory.read, Ne.symm h]
  | cons c rest ih =>
    obtain ⟨i, u⟩ := c
    simp only [Memory.write]
    split
    · simp [Memory.read, Ne.symm h]
    · split
      · next hk => subst hk; simp [Memory.read, Ne.symm h]
      · simp [Memory.read, ih]

/-- A read after a write, in one equation. -/
theorem Memory.read_write (m : Memory) (k j : Nat) (v : Byte) :
    (m.write k v).read j = if j = k then some v else m.read j := by
  split
  · next h => subst h; exact m.read_write_same j v
  · next h => exact m.read_write_other v h

/-- The cells of a written memory: the written one and old ones. -/
theorem Memory.mem_write {m : Memory} {k : Nat} {v : Byte} {c : Host.Cell} (h : c ∈ m.write k v) :
    c = (k, v) ∨ c ∈ m := by
  induction m with
  | nil => simpa [Memory.write] using h
  | cons d rest ih =>
    obtain ⟨j, u⟩ := d
    simp only [Memory.write] at h
    split at h
    · simpa using h
    · split at h
      · rcases List.mem_cons.mp h with h | h
        · exact .inl h
        · exact .inr (List.mem_cons_of_mem _ h)
      · rcases List.mem_cons.mp h with h | h
        · exact .inr (by simp [h])
        · rcases ih h with h | h
          · exact .inl h
          · exact .inr (List.mem_cons_of_mem _ h)

/-- A write keeps the canonical form. -/
theorem Memory.write_wf {m : Memory} (k : Nat) (v : Byte) (h : m.wf) : (m.write k v).wf := by
  induction m with
  | nil => simp [Memory.write, Memory.wf]
  | cons c rest ih =>
    obtain ⟨j, u⟩ := c
    have hc := List.pairwise_cons.mp h
    simp only [Memory.write]
    split
    · next hlt =>
      refine List.pairwise_cons.mpr ⟨fun x hx => ?_, h⟩
      rcases List.mem_cons.mp hx with rfl | hx
      · exact hlt
      · exact hlt.trans (hc.1 x hx)
    · next hge =>
      split
      · next heq => subst heq; exact List.pairwise_cons.mpr ⟨hc.1, hc.2⟩
      · next hne =>
        refine List.pairwise_cons.mpr ⟨fun x hx => ?_, ih hc.2⟩
        rcases Memory.mem_write hx with rfl | hx
        · exact Nat.lt_of_le_of_ne (Nat.le_of_not_lt hge) (Ne.symm hne)
        · exact hc.1 x hx

/-- A write keeps a bound on the cells. -/
theorem Memory.write_bound {m : Memory} {n k : Nat} (v : Byte) (h : ∀ c ∈ m, c.1 < n) (hk : k < n) :
    ∀ c ∈ m.write k v, c.1 < n := by
  intro c hc
  rcases Memory.mem_write hc with rfl | hc
  · exact hk
  · exact h c hc

theorem Memory.read_of_forall_lt {m : Memory} {k : Nat} (h : ∀ c ∈ m, k < c.1) : m.read k = none := by
  induction m with
  | nil => rfl
  | cons c rest ih =>
    obtain ⟨j, u⟩ := c
    have hj : k < j := h (j, u) (by simp)
    simp only [Memory.read]
    rw [if_neg (by omega), ih (fun c hc => h c (List.mem_cons_of_mem _ hc))]

/-- Canonical memories with the same cells are the same data. -/
theorem Memory.ext {m n : Memory} (hm : m.wf) (hn : n.wf) (h : ∀ k, m.read k = n.read k) : m = n := by
  induction m generalizing n with
  | nil =>
    cases n with
    | nil => rfl
    | cons c rest => have := h c.1; simp [Memory.read] at this
  | cons c rest ih =>
    obtain ⟨j, u⟩ := c
    have hc := List.pairwise_cons.mp hm
    cases n with
    | nil => have := h j; simp [Memory.read] at this
    | cons d rest' =>
      obtain ⟨i, x⟩ := d
      have hd := List.pairwise_cons.mp hn
      have hji : j = i := by
        rcases Nat.lt_trichotomy j i with hlt | heq | hgt
        · have h1 := h j
          have h2 : Memory.read rest' j = none := Memory.read_of_forall_lt (fun c hc => hlt.trans (hd.1 c hc))
          simp [Memory.read, Nat.ne_of_gt hlt, h2] at h1
        · exact heq
        · have h1 := h i
          have h2 : Memory.read rest i = none := Memory.read_of_forall_lt (fun c h' => hgt.trans (hc.1 c h'))
          simp [Memory.read, Nat.ne_of_gt hgt, h2] at h1
      subst hji
      have hux : u = x := by simpa [Memory.read] using h j
      subst hux
      rw [ih hc.2 hd.2]
      intro k
      have hk := h k
      by_cases hkj : j = k
      · subst hkj
        rw [Memory.read_of_forall_lt (fun c h' => hc.1 c h'), Memory.read_of_forall_lt (fun c h' => hd.1 c h')]
      · simpa [Memory.read, hkj] using hk

/-- The canonical form through the two stores of the machine. -/
theorem State.storeByte_wf {s : State} (k : Nat) (v : Byte) (h : s.msg.wf) : (s.storeByte k v).msg.wf :=
  Memory.write_wf k v h

theorem State.storeWord_wf {s : State} (k : Nat) (v : Word) (h : s.msg.wf) : (s.storeWord k v).msg.wf :=
  Memory.write_wf _ _ (Memory.write_wf _ _ (Memory.write_wf _ _ (Memory.write_wf _ _ h)))

theorem State.resetEvent_wf (s : State) : s.resetEvent.msg.wf := List.Pairwise.nil

/-- The memory after reset is canonical. -/
theorem State.reset_wf : State.reset.msg.wf := List.Pairwise.nil

/-- Every cell of the machine after a 1-byte store. -/
theorem State.storeByte_msgCell (s : State) {k : Nat} (v : Byte) (hk : k < s.msgBytes.toNat) (j : Nat) :
    (s.storeByte k v).msgCell j = if j = k then some v else s.msgCell j := by
  simp only [State.msgCell, State.storeByte, Memory.read_write]
  by_cases h : j = k
  · subst h; simp [hk]
  · simp [h]

/-- Every cell of the machine after a 4-byte store. -/
theorem State.storeWord_msgCell (s : State) {k : Nat} (v : Word) (hk : k + 3 < s.msgBytes.toNat) (j : Nat) :
    (s.storeWord k v).msgCell j =
      if j = k then some (laneByte v 0)
      else if j = k + 1 then some (laneByte v 1)
      else if j = k + 2 then some (laneByte v 2)
      else if j = k + 3 then some (laneByte v 3)
      else s.msgCell j := by
  simp only [State.msgCell, State.storeWord, Memory.read_write]
  by_cases h3 : j = k + 3
  · subst h3; simp [hk]
  by_cases h2 : j = k + 2
  · subst h2; have : k + 2 < s.msgBytes.toNat := by omega
    simp [this]
  by_cases h1 : j = k + 1
  · subst h1; have : k + 1 < s.msgBytes.toNat := by omega
    simp [this]
  by_cases h0 : j = k
  · subst h0; have : j < s.msgBytes.toNat := by omega
    simp [this]
  simp [h0, h1, h2, h3]

end Sys2Proof.Machine
end

