-- ==== Sys2Proof/Laws/State.lean ====
section
/-! SUPPORT. What each update of the state does to each field: one lemma per field per update. -/

namespace Sys2Proof.Machine

/-! ### State.respond -/

@[simp] theorem State.respond_h (s : State) (c : Resp) (v : Word) : (s.respond c v).h = s.h := rfl
@[simp] theorem State.respond_vars (s : State) (c : Resp) (v : Word) : (s.respond c v).vars = s.vars := rfl
@[simp] theorem State.respond_w (s : State) (c : Resp) (v : Word) : (s.respond c v).w = s.w := rfl
@[simp] theorem State.respond_t (s : State) (c : Resp) (v : Word) : (s.respond c v).t = s.t := rfl
@[simp] theorem State.respond_phase (s : State) (c : Resp) (v : Word) : (s.respond c v).phase = s.phase := rfl
@[simp] theorem State.respond_blkcnt (s : State) (c : Resp) (v : Word) : (s.respond c v).blkcnt = s.blkcnt := rfl
@[simp] theorem State.respond_nblk (s : State) (c : Resp) (v : Word) : (s.respond c v).nblk = s.nblk := rfl
@[simp] theorem State.respond_errcode (s : State) (c : Resp) (v : Word) : (s.respond c v).errcode = s.errcode := rfl
@[simp] theorem State.respond_ie (s : State) (c : Resp) (v : Word) : (s.respond c v).ie = s.ie := rfl
@[simp] theorem State.respond_lenHi (s : State) (c : Resp) (v : Word) : (s.respond c v).lenHi = s.lenHi := rfl
@[simp] theorem State.respond_lenLo (s : State) (c : Resp) (v : Word) : (s.respond c v).lenLo = s.lenLo := rfl
@[simp] theorem State.respond_msg (s : State) (c : Resp) (v : Word) : (s.respond c v).msg = s.msg := rfl
@[simp] theorem State.respond_fault (s : State) (c : Resp) (v : Word) : (s.respond c v).fault = s.fault := rfl
@[simp] theorem State.respond_msgBytes (s : State) (c : Resp) (v : Word) :
    (s.respond c v).msgBytes = s.msgBytes := rfl
@[simp] theorem State.respond_resp (s : State) (c : Resp) (v : Word) : (s.respond c v).resp = some ⟨c, v⟩ := rfl
@[simp] theorem State.respond_inputs (s : State) (c : Resp) (v : Word) : (s.respond c v).inputs = s.inputs := rfl

@[simp] theorem State.respond_toCoreState (s : State) (c : Resp) (v : Word) :
    (s.respond c v).toCoreState = s.toCoreState := rfl
@[simp] theorem State.respond_toParameters (s : State) (c : Resp) (v : Word) :
    (s.respond c v).toParameters = s.toParameters := rfl

/-! ### State.pop -/

@[simp] theorem State.pop_toCoreState (s : State) : s.pop.toCoreState = s.toCoreState := rfl
@[simp] theorem State.pop_toParameters (s : State) : s.pop.toParameters = s.toParameters := rfl
@[simp] theorem State.pop_h (s : State) : (s.pop).h = s.h := rfl
@[simp] theorem State.pop_vars (s : State) : (s.pop).vars = s.vars := rfl
@[simp] theorem State.pop_w (s : State) : (s.pop).w = s.w := rfl
@[simp] theorem State.pop_t (s : State) : (s.pop).t = s.t := rfl
@[simp] theorem State.pop_phase (s : State) : (s.pop).phase = s.phase := rfl
@[simp] theorem State.pop_blkcnt (s : State) : (s.pop).blkcnt = s.blkcnt := rfl
@[simp] theorem State.pop_nblk (s : State) : (s.pop).nblk = s.nblk := rfl
@[simp] theorem State.pop_errcode (s : State) : (s.pop).errcode = s.errcode := rfl
@[simp] theorem State.pop_ie (s : State) : (s.pop).ie = s.ie := rfl
@[simp] theorem State.pop_lenHi (s : State) : (s.pop).lenHi = s.lenHi := rfl
@[simp] theorem State.pop_lenLo (s : State) : (s.pop).lenLo = s.lenLo := rfl
@[simp] theorem State.pop_msg (s : State) : (s.pop).msg = s.msg := rfl
@[simp] theorem State.pop_fault (s : State) : (s.pop).fault = s.fault := rfl
@[simp] theorem State.pop_msgBytes (s : State) : (s.pop).msgBytes = s.msgBytes := rfl
@[simp] theorem State.pop_resp (s : State) : (s.pop).resp = s.resp := rfl
@[simp] theorem State.pop_inputs (s : State) : (s.pop).inputs = s.inputs.tail := rfl

/-! ### State.raise -/

@[simp] theorem State.raise_h (s : State) (f : Fault) : (s.raise f).h = s.h := rfl
@[simp] theorem State.raise_vars (s : State) (f : Fault) : (s.raise f).vars = s.vars := rfl
@[simp] theorem State.raise_w (s : State) (f : Fault) : (s.raise f).w = s.w := rfl
@[simp] theorem State.raise_t (s : State) (f : Fault) : (s.raise f).t = s.t := rfl
@[simp] theorem State.raise_phase (s : State) (f : Fault) : (s.raise f).phase = s.phase := rfl
@[simp] theorem State.raise_blkcnt (s : State) (f : Fault) : (s.raise f).blkcnt = s.blkcnt := rfl
@[simp] theorem State.raise_nblk (s : State) (f : Fault) : (s.raise f).nblk = s.nblk := rfl
@[simp] theorem State.raise_errcode (s : State) (f : Fault) : (s.raise f).errcode = s.errcode := rfl
@[simp] theorem State.raise_ie (s : State) (f : Fault) : (s.raise f).ie = s.ie := rfl
@[simp] theorem State.raise_lenHi (s : State) (f : Fault) : (s.raise f).lenHi = s.lenHi := rfl
@[simp] theorem State.raise_lenLo (s : State) (f : Fault) : (s.raise f).lenLo = s.lenLo := rfl
@[simp] theorem State.raise_msg (s : State) (f : Fault) : (s.raise f).msg = s.msg := rfl
@[simp] theorem State.raise_fault (s : State) (f : Fault) : (s.raise f).fault = some f := rfl
@[simp] theorem State.raise_msgBytes (s : State) (f : Fault) : (s.raise f).msgBytes = s.msgBytes := rfl
@[simp] theorem State.raise_resp (s : State) (f : Fault) : (s.raise f).resp = s.resp := rfl
@[simp] theorem State.raise_inputs (s : State) (f : Fault) : (s.raise f).inputs = s.inputs := rfl

/-! ### State.withIe -/

@[simp] theorem State.withIe_h (s : State) (b : Bool) : (s.withIe b).h = s.h := rfl
@[simp] theorem State.withIe_vars (s : State) (b : Bool) : (s.withIe b).vars = s.vars := rfl
@[simp] theorem State.withIe_w (s : State) (b : Bool) : (s.withIe b).w = s.w := rfl
@[simp] theorem State.withIe_t (s : State) (b : Bool) : (s.withIe b).t = s.t := rfl
@[simp] theorem State.withIe_phase (s : State) (b : Bool) : (s.withIe b).phase = s.phase := rfl
@[simp] theorem State.withIe_blkcnt (s : State) (b : Bool) : (s.withIe b).blkcnt = s.blkcnt := rfl
@[simp] theorem State.withIe_nblk (s : State) (b : Bool) : (s.withIe b).nblk = s.nblk := rfl
@[simp] theorem State.withIe_errcode (s : State) (b : Bool) : (s.withIe b).errcode = s.errcode := rfl
@[simp] theorem State.withIe_ie (s : State) (b : Bool) : (s.withIe b).ie = b := rfl
@[simp] theorem State.withIe_lenHi (s : State) (b : Bool) : (s.withIe b).lenHi = s.lenHi := rfl
@[simp] theorem State.withIe_lenLo (s : State) (b : Bool) : (s.withIe b).lenLo = s.lenLo := rfl
@[simp] theorem State.withIe_msg (s : State) (b : Bool) : (s.withIe b).msg = s.msg := rfl
@[simp] theorem State.withIe_fault (s : State) (b : Bool) : (s.withIe b).fault = s.fault := rfl
@[simp] theorem State.withIe_msgBytes (s : State) (b : Bool) : (s.withIe b).msgBytes = s.msgBytes := rfl
@[simp] theorem State.withIe_resp (s : State) (b : Bool) : (s.withIe b).resp = s.resp := rfl
@[simp] theorem State.withIe_inputs (s : State) (b : Bool) : (s.withIe b).inputs = s.inputs := rfl

/-! ### State.withLenHi -/

@[simp] theorem State.withLenHi_h (s : State) (v : Word) : (s.withLenHi v).h = s.h := rfl
@[simp] theorem State.withLenHi_vars (s : State) (v : Word) : (s.withLenHi v).vars = s.vars := rfl
@[simp] theorem State.withLenHi_w (s : State) (v : Word) : (s.withLenHi v).w = s.w := rfl
@[simp] theorem State.withLenHi_t (s : State) (v : Word) : (s.withLenHi v).t = s.t := rfl
@[simp] theorem State.withLenHi_phase (s : State) (v : Word) : (s.withLenHi v).phase = s.phase := rfl
@[simp] theorem State.withLenHi_blkcnt (s : State) (v : Word) : (s.withLenHi v).blkcnt = s.blkcnt := rfl
@[simp] theorem State.withLenHi_nblk (s : State) (v : Word) : (s.withLenHi v).nblk = s.nblk := rfl
@[simp] theorem State.withLenHi_errcode (s : State) (v : Word) : (s.withLenHi v).errcode = s.errcode := rfl
@[simp] theorem State.withLenHi_ie (s : State) (v : Word) : (s.withLenHi v).ie = s.ie := rfl
@[simp] theorem State.withLenHi_lenHi (s : State) (v : Word) : (s.withLenHi v).lenHi = v := rfl
@[simp] theorem State.withLenHi_lenLo (s : State) (v : Word) : (s.withLenHi v).lenLo = s.lenLo := rfl
@[simp] theorem State.withLenHi_msg (s : State) (v : Word) : (s.withLenHi v).msg = s.msg := rfl
@[simp] theorem State.withLenHi_fault (s : State) (v : Word) : (s.withLenHi v).fault = s.fault := rfl
@[simp] theorem State.withLenHi_msgBytes (s : State) (v : Word) : (s.withLenHi v).msgBytes = s.msgBytes := rfl
@[simp] theorem State.withLenHi_resp (s : State) (v : Word) : (s.withLenHi v).resp = s.resp := rfl
@[simp] theorem State.withLenHi_inputs (s : State) (v : Word) : (s.withLenHi v).inputs = s.inputs := rfl

/-! ### State.withLenLo -/

@[simp] theorem State.withLenLo_h (s : State) (v : Word) : (s.withLenLo v).h = s.h := rfl
@[simp] theorem State.withLenLo_vars (s : State) (v : Word) : (s.withLenLo v).vars = s.vars := rfl
@[simp] theorem State.withLenLo_w (s : State) (v : Word) : (s.withLenLo v).w = s.w := rfl
@[simp] theorem State.withLenLo_t (s : State) (v : Word) : (s.withLenLo v).t = s.t := rfl
@[simp] theorem State.withLenLo_phase (s : State) (v : Word) : (s.withLenLo v).phase = s.phase := rfl
@[simp] theorem State.withLenLo_blkcnt (s : State) (v : Word) : (s.withLenLo v).blkcnt = s.blkcnt := rfl
@[simp] theorem State.withLenLo_nblk (s : State) (v : Word) : (s.withLenLo v).nblk = s.nblk := rfl
@[simp] theorem State.withLenLo_errcode (s : State) (v : Word) : (s.withLenLo v).errcode = s.errcode := rfl
@[simp] theorem State.withLenLo_ie (s : State) (v : Word) : (s.withLenLo v).ie = s.ie := rfl
@[simp] theorem State.withLenLo_lenHi (s : State) (v : Word) : (s.withLenLo v).lenHi = s.lenHi := rfl
@[simp] theorem State.withLenLo_lenLo (s : State) (v : Word) : (s.withLenLo v).lenLo = v := rfl
@[simp] theorem State.withLenLo_msg (s : State) (v : Word) : (s.withLenLo v).msg = s.msg := rfl
@[simp] theorem State.withLenLo_fault (s : State) (v : Word) : (s.withLenLo v).fault = s.fault := rfl
@[simp] theorem State.withLenLo_msgBytes (s : State) (v : Word) : (s.withLenLo v).msgBytes = s.msgBytes := rfl
@[simp] theorem State.withLenLo_resp (s : State) (v : Word) : (s.withLenLo v).resp = s.resp := rfl
@[simp] theorem State.withLenLo_inputs (s : State) (v : Word) : (s.withLenLo v).inputs = s.inputs := rfl

/-! ### State.storeByte -/

@[simp] theorem State.storeByte_h (s : State) (k : Nat) (v : Byte) : (s.storeByte k v).h = s.h := rfl
@[simp] theorem State.storeByte_vars (s : State) (k : Nat) (v : Byte) : (s.storeByte k v).vars = s.vars := rfl
@[simp] theorem State.storeByte_w (s : State) (k : Nat) (v : Byte) : (s.storeByte k v).w = s.w := rfl
@[simp] theorem State.storeByte_t (s : State) (k : Nat) (v : Byte) : (s.storeByte k v).t = s.t := rfl
@[simp] theorem State.storeByte_phase (s : State) (k : Nat) (v : Byte) : (s.storeByte k v).phase = s.phase := rfl
@[simp] theorem State.storeByte_blkcnt (s : State) (k : Nat) (v : Byte) : (s.storeByte k v).blkcnt = s.blkcnt := rfl
@[simp] theorem State.storeByte_nblk (s : State) (k : Nat) (v : Byte) : (s.storeByte k v).nblk = s.nblk := rfl
@[simp] theorem State.storeByte_errcode (s : State) (k : Nat) (v : Byte) :
    (s.storeByte k v).errcode = s.errcode := rfl
@[simp] theorem State.storeByte_ie (s : State) (k : Nat) (v : Byte) : (s.storeByte k v).ie = s.ie := rfl
@[simp] theorem State.storeByte_lenHi (s : State) (k : Nat) (v : Byte) : (s.storeByte k v).lenHi = s.lenHi := rfl
@[simp] theorem State.storeByte_lenLo (s : State) (k : Nat) (v : Byte) : (s.storeByte k v).lenLo = s.lenLo := rfl
@[simp] theorem State.storeByte_msg (s : State) (k : Nat) (v : Byte) : (s.storeByte k v).msg = s.msg.write k v := rfl
@[simp] theorem State.storeByte_fault (s : State) (k : Nat) (v : Byte) : (s.storeByte k v).fault = s.fault := rfl
@[simp] theorem State.storeByte_msgBytes (s : State) (k : Nat) (v : Byte) :
    (s.storeByte k v).msgBytes = s.msgBytes := rfl
@[simp] theorem State.storeByte_resp (s : State) (k : Nat) (v : Byte) : (s.storeByte k v).resp = s.resp := rfl
@[simp] theorem State.storeByte_inputs (s : State) (k : Nat) (v : Byte) : (s.storeByte k v).inputs = s.inputs := rfl

/-! ### State.storeWord -/

@[simp] theorem State.storeWord_h (s : State) (k : Nat) (v : Word) : (s.storeWord k v).h = s.h := rfl
@[simp] theorem State.storeWord_vars (s : State) (k : Nat) (v : Word) : (s.storeWord k v).vars = s.vars := rfl
@[simp] theorem State.storeWord_w (s : State) (k : Nat) (v : Word) : (s.storeWord k v).w = s.w := rfl
@[simp] theorem State.storeWord_t (s : State) (k : Nat) (v : Word) : (s.storeWord k v).t = s.t := rfl
@[simp] theorem State.storeWord_phase (s : State) (k : Nat) (v : Word) : (s.storeWord k v).phase = s.phase := rfl
@[simp] theorem State.storeWord_blkcnt (s : State) (k : Nat) (v : Word) : (s.storeWord k v).blkcnt = s.blkcnt := rfl
@[simp] theorem State.storeWord_nblk (s : State) (k : Nat) (v : Word) : (s.storeWord k v).nblk = s.nblk := rfl
@[simp] theorem State.storeWord_errcode (s : State) (k : Nat) (v : Word) :
    (s.storeWord k v).errcode = s.errcode := rfl
@[simp] theorem State.storeWord_ie (s : State) (k : Nat) (v : Word) : (s.storeWord k v).ie = s.ie := rfl
@[simp] theorem State.storeWord_lenHi (s : State) (k : Nat) (v : Word) : (s.storeWord k v).lenHi = s.lenHi := rfl
@[simp] theorem State.storeWord_lenLo (s : State) (k : Nat) (v : Word) : (s.storeWord k v).lenLo = s.lenLo := rfl
@[simp] theorem State.storeWord_msg (s : State) (k : Nat) (v : Word) :
    (s.storeWord k v).msg = (((s.msg.write k (laneByte v 0)).write (k + 1) (laneByte v 1)).write (k + 2) (laneByte v 2)).write
      (k + 3) (laneByte v 3) := rfl
@[simp] theorem State.storeWord_fault (s : State) (k : Nat) (v : Word) : (s.storeWord k v).fault = s.fault := rfl
@[simp] theorem State.storeWord_msgBytes (s : State) (k : Nat) (v : Word) :
    (s.storeWord k v).msgBytes = s.msgBytes := rfl
@[simp] theorem State.storeWord_resp (s : State) (k : Nat) (v : Word) : (s.storeWord k v).resp = s.resp := rfl
@[simp] theorem State.storeWord_inputs (s : State) (k : Nat) (v : Word) : (s.storeWord k v).inputs = s.inputs := rfl

/-! ### State.clearJob -/

@[simp] theorem State.clearJob_h (s : State) : (s.clearJob).h = Vector.replicate 8 0#32 := rfl
@[simp] theorem State.clearJob_vars (s : State) : (s.clearJob).vars = Vars.zero := rfl
@[simp] theorem State.clearJob_w (s : State) : (s.clearJob).w = Vector.replicate 64 0#32 := rfl
@[simp] theorem State.clearJob_t (s : State) : (s.clearJob).t = 0#6 := rfl
@[simp] theorem State.clearJob_phase (s : State) : (s.clearJob).phase = s.phase := rfl
@[simp] theorem State.clearJob_blkcnt (s : State) : (s.clearJob).blkcnt = 0#32 := rfl
@[simp] theorem State.clearJob_nblk (s : State) : (s.clearJob).nblk = 0#32 := rfl
@[simp] theorem State.clearJob_errcode (s : State) : (s.clearJob).errcode = s.errcode := rfl
@[simp] theorem State.clearJob_ie (s : State) : (s.clearJob).ie = s.ie := rfl
@[simp] theorem State.clearJob_lenHi (s : State) : (s.clearJob).lenHi = s.lenHi := rfl
@[simp] theorem State.clearJob_lenLo (s : State) : (s.clearJob).lenLo = s.lenLo := rfl
@[simp] theorem State.clearJob_msg (s : State) : (s.clearJob).msg = s.msg := rfl
@[simp] theorem State.clearJob_fault (s : State) : (s.clearJob).fault = s.fault := rfl
@[simp] theorem State.clearJob_msgBytes (s : State) : (s.clearJob).msgBytes = s.msgBytes := rfl
@[simp] theorem State.clearJob_resp (s : State) : (s.clearJob).resp = s.resp := rfl
@[simp] theorem State.clearJob_inputs (s : State) : (s.clearJob).inputs = s.inputs := rfl

/-! ### State.enterError -/

@[simp] theorem State.enterError_h (s : State) (b : Bool) (c : BitVec 4) :
    (s.enterError b c).h = Vector.replicate 8 0#32 := rfl
@[simp] theorem State.enterError_vars (s : State) (b : Bool) (c : BitVec 4) :
    (s.enterError b c).vars = Vars.zero := rfl
@[simp] theorem State.enterError_w (s : State) (b : Bool) (c : BitVec 4) :
    (s.enterError b c).w = Vector.replicate 64 0#32 := rfl
@[simp] theorem State.enterError_t (s : State) (b : Bool) (c : BitVec 4) : (s.enterError b c).t = 0#6 := rfl
@[simp] theorem State.enterError_phase (s : State) (b : Bool) (c : BitVec 4) :
    (s.enterError b c).phase = phaseError := rfl
@[simp] theorem State.enterError_blkcnt (s : State) (b : Bool) (c : BitVec 4) :
    (s.enterError b c).blkcnt = 0#32 := rfl
@[simp] theorem State.enterError_nblk (s : State) (b : Bool) (c : BitVec 4) : (s.enterError b c).nblk = 0#32 := rfl
@[simp] theorem State.enterError_errcode (s : State) (b : Bool) (c : BitVec 4) : (s.enterError b c).errcode = c := rfl
@[simp] theorem State.enterError_ie (s : State) (b : Bool) (c : BitVec 4) : (s.enterError b c).ie = b := rfl
@[simp] theorem State.enterError_lenHi (s : State) (b : Bool) (c : BitVec 4) :
    (s.enterError b c).lenHi = s.lenHi := rfl
@[simp] theorem State.enterError_lenLo (s : State) (b : Bool) (c : BitVec 4) :
    (s.enterError b c).lenLo = s.lenLo := rfl
@[simp] theorem State.enterError_msg (s : State) (b : Bool) (c : BitVec 4) : (s.enterError b c).msg = s.msg := rfl
@[simp] theorem State.enterError_fault (s : State) (b : Bool) (c : BitVec 4) :
    (s.enterError b c).fault = s.fault := rfl
@[simp] theorem State.enterError_msgBytes (s : State) (b : Bool) (c : BitVec 4) :
    (s.enterError b c).msgBytes = s.msgBytes := rfl
@[simp] theorem State.enterError_resp (s : State) (b : Bool) (c : BitVec 4) : (s.enterError b c).resp = s.resp := rfl
@[simp] theorem State.enterError_inputs (s : State) (b : Bool) (c : BitVec 4) :
    (s.enterError b c).inputs = s.inputs := rfl

/-! ### State.seedJob -/

@[simp] theorem State.seedJob_h (s : State) (b : Bool) (n : Word) : (s.seedJob b n).h = ivTable := rfl
@[simp] theorem State.seedJob_vars (s : State) (b : Bool) (n : Word) : (s.seedJob b n).vars = Vars.zero := rfl
@[simp] theorem State.seedJob_w (s : State) (b : Bool) (n : Word) :
    (s.seedJob b n).w = Vector.replicate 64 0#32 := rfl
@[simp] theorem State.seedJob_t (s : State) (b : Bool) (n : Word) : (s.seedJob b n).t = 0#6 := rfl
@[simp] theorem State.seedJob_phase (s : State) (b : Bool) (n : Word) : (s.seedJob b n).phase = phaseLoad := rfl
@[simp] theorem State.seedJob_blkcnt (s : State) (b : Bool) (n : Word) : (s.seedJob b n).blkcnt = 0#32 := rfl
@[simp] theorem State.seedJob_nblk (s : State) (b : Bool) (n : Word) : (s.seedJob b n).nblk = n := rfl
@[simp] theorem State.seedJob_errcode (s : State) (b : Bool) (n : Word) : (s.seedJob b n).errcode = 0#4 := rfl
@[simp] theorem State.seedJob_ie (s : State) (b : Bool) (n : Word) : (s.seedJob b n).ie = b := rfl
@[simp] theorem State.seedJob_lenHi (s : State) (b : Bool) (n : Word) : (s.seedJob b n).lenHi = s.lenHi := rfl
@[simp] theorem State.seedJob_lenLo (s : State) (b : Bool) (n : Word) : (s.seedJob b n).lenLo = s.lenLo := rfl
@[simp] theorem State.seedJob_msg (s : State) (b : Bool) (n : Word) : (s.seedJob b n).msg = s.msg := rfl
@[simp] theorem State.seedJob_fault (s : State) (b : Bool) (n : Word) : (s.seedJob b n).fault = s.fault := rfl
@[simp] theorem State.seedJob_msgBytes (s : State) (b : Bool) (n : Word) :
    (s.seedJob b n).msgBytes = s.msgBytes := rfl
@[simp] theorem State.seedJob_resp (s : State) (b : Bool) (n : Word) : (s.seedJob b n).resp = s.resp := rfl
@[simp] theorem State.seedJob_inputs (s : State) (b : Bool) (n : Word) : (s.seedJob b n).inputs = s.inputs := rfl

/-! ### State.clear -/

@[simp] theorem State.clear_h (s : State) (b : Bool) : (s.clear b).h = Vector.replicate 8 0#32 := rfl
@[simp] theorem State.clear_vars (s : State) (b : Bool) : (s.clear b).vars = Vars.zero := rfl
@[simp] theorem State.clear_w (s : State) (b : Bool) : (s.clear b).w = Vector.replicate 64 0#32 := rfl
@[simp] theorem State.clear_t (s : State) (b : Bool) : (s.clear b).t = 0#6 := rfl
@[simp] theorem State.clear_phase (s : State) (b : Bool) : (s.clear b).phase = phaseIdle := rfl
@[simp] theorem State.clear_blkcnt (s : State) (b : Bool) : (s.clear b).blkcnt = 0#32 := rfl
@[simp] theorem State.clear_nblk (s : State) (b : Bool) : (s.clear b).nblk = 0#32 := rfl
@[simp] theorem State.clear_errcode (s : State) (b : Bool) : (s.clear b).errcode = 0#4 := rfl
@[simp] theorem State.clear_ie (s : State) (b : Bool) : (s.clear b).ie = b := rfl
@[simp] theorem State.clear_lenHi (s : State) (b : Bool) : (s.clear b).lenHi = s.lenHi := rfl
@[simp] theorem State.clear_lenLo (s : State) (b : Bool) : (s.clear b).lenLo = s.lenLo := rfl
@[simp] theorem State.clear_msg (s : State) (b : Bool) : (s.clear b).msg = s.msg := rfl
@[simp] theorem State.clear_fault (s : State) (b : Bool) : (s.clear b).fault = s.fault := rfl
@[simp] theorem State.clear_msgBytes (s : State) (b : Bool) : (s.clear b).msgBytes = s.msgBytes := rfl
@[simp] theorem State.clear_resp (s : State) (b : Bool) : (s.clear b).resp = s.resp := rfl
@[simp] theorem State.clear_inputs (s : State) (b : Bool) : (s.clear b).inputs = s.inputs := rfl

/-! ### State.resetEvent -/

@[simp] theorem State.resetEvent_h (s : State) : (s.resetEvent).h = Vector.replicate 8 0#32 := rfl
@[simp] theorem State.resetEvent_vars (s : State) : (s.resetEvent).vars = Vars.zero := rfl
@[simp] theorem State.resetEvent_w (s : State) : (s.resetEvent).w = Vector.replicate 64 0#32 := rfl
@[simp] theorem State.resetEvent_t (s : State) : (s.resetEvent).t = 0#6 := rfl
@[simp] theorem State.resetEvent_phase (s : State) : (s.resetEvent).phase = phaseIdle := rfl
@[simp] theorem State.resetEvent_blkcnt (s : State) : (s.resetEvent).blkcnt = 0#32 := rfl
@[simp] theorem State.resetEvent_nblk (s : State) : (s.resetEvent).nblk = 0#32 := rfl
@[simp] theorem State.resetEvent_errcode (s : State) : (s.resetEvent).errcode = 0#4 := rfl
@[simp] theorem State.resetEvent_ie (s : State) : (s.resetEvent).ie = false := rfl
@[simp] theorem State.resetEvent_lenHi (s : State) : (s.resetEvent).lenHi = 0#32 := rfl
@[simp] theorem State.resetEvent_lenLo (s : State) : (s.resetEvent).lenLo = 0#32 := rfl
@[simp] theorem State.resetEvent_msg (s : State) : (s.resetEvent).msg = [] := rfl
@[simp] theorem State.resetEvent_fault (s : State) : (s.resetEvent).fault = s.fault := rfl
@[simp] theorem State.resetEvent_msgBytes (s : State) : (s.resetEvent).msgBytes = s.msgBytes := rfl
@[simp] theorem State.resetEvent_resp (s : State) : (s.resetEvent).resp = s.resp := rfl
@[simp] theorem State.resetEvent_inputs (s : State) : (s.resetEvent).inputs = s.inputs := rfl

/-! ### State.loaded -/

@[simp] theorem State.loaded_h (s : State) (x : Vector Word 64) : (s.loaded x).h = s.h := rfl
@[simp] theorem State.loaded_vars (s : State) (x : Vector Word 64) : (s.loaded x).vars = varsOfH s.h := rfl
@[simp] theorem State.loaded_w (s : State) (x : Vector Word 64) : (s.loaded x).w = x := rfl
@[simp] theorem State.loaded_t (s : State) (x : Vector Word 64) : (s.loaded x).t = 0#6 := rfl
@[simp] theorem State.loaded_phase (s : State) (x : Vector Word 64) : (s.loaded x).phase = phaseRound := rfl
@[simp] theorem State.loaded_blkcnt (s : State) (x : Vector Word 64) : (s.loaded x).blkcnt = s.blkcnt := rfl
@[simp] theorem State.loaded_nblk (s : State) (x : Vector Word 64) : (s.loaded x).nblk = s.nblk := rfl
@[simp] theorem State.loaded_errcode (s : State) (x : Vector Word 64) : (s.loaded x).errcode = s.errcode := rfl
@[simp] theorem State.loaded_ie (s : State) (x : Vector Word 64) : (s.loaded x).ie = s.ie := rfl
@[simp] theorem State.loaded_lenHi (s : State) (x : Vector Word 64) : (s.loaded x).lenHi = s.lenHi := rfl
@[simp] theorem State.loaded_lenLo (s : State) (x : Vector Word 64) : (s.loaded x).lenLo = s.lenLo := rfl
@[simp] theorem State.loaded_msg (s : State) (x : Vector Word 64) : (s.loaded x).msg = s.msg := rfl
@[simp] theorem State.loaded_fault (s : State) (x : Vector Word 64) : (s.loaded x).fault = s.fault := rfl
@[simp] theorem State.loaded_msgBytes (s : State) (x : Vector Word 64) : (s.loaded x).msgBytes = s.msgBytes := rfl
@[simp] theorem State.loaded_resp (s : State) (x : Vector Word 64) : (s.loaded x).resp = s.resp := rfl
@[simp] theorem State.loaded_inputs (s : State) (x : Vector Word 64) : (s.loaded x).inputs = s.inputs := rfl

/-! ### State.rounded -/

@[simp] theorem State.rounded_h (s : State) : (s.rounded).h = s.h := rfl
@[simp] theorem State.rounded_vars (s : State) :
    (s.rounded).vars = roundVars s.vars (kWord s.t) (expandWord s.w s.t) := rfl
@[simp] theorem State.rounded_w (s : State) : (s.rounded).w = expandFile s.w s.t := rfl
@[simp] theorem State.rounded_t (s : State) : (s.rounded).t = if s.t.toNat < 63 then s.t + 1#6 else s.t := rfl
@[simp] theorem State.rounded_phase (s : State) :
    (s.rounded).phase = if s.t.toNat < 63 then s.phase else phaseFold := rfl
@[simp] theorem State.rounded_blkcnt (s : State) : (s.rounded).blkcnt = s.blkcnt := rfl
@[simp] theorem State.rounded_nblk (s : State) : (s.rounded).nblk = s.nblk := rfl
@[simp] theorem State.rounded_errcode (s : State) : (s.rounded).errcode = s.errcode := rfl
@[simp] theorem State.rounded_ie (s : State) : (s.rounded).ie = s.ie := rfl
@[simp] theorem State.rounded_lenHi (s : State) : (s.rounded).lenHi = s.lenHi := rfl
@[simp] theorem State.rounded_lenLo (s : State) : (s.rounded).lenLo = s.lenLo := rfl
@[simp] theorem State.rounded_msg (s : State) : (s.rounded).msg = s.msg := rfl
@[simp] theorem State.rounded_fault (s : State) : (s.rounded).fault = s.fault := rfl
@[simp] theorem State.rounded_msgBytes (s : State) : (s.rounded).msgBytes = s.msgBytes := rfl
@[simp] theorem State.rounded_resp (s : State) : (s.rounded).resp = s.resp := rfl
@[simp] theorem State.rounded_inputs (s : State) : (s.rounded).inputs = s.inputs := rfl

/-! ### State.folded -/

@[simp] theorem State.folded_h (s : State) : (s.folded).h = foldH s.h s.vars := rfl
@[simp] theorem State.folded_vars (s : State) : (s.folded).vars = s.vars := rfl
@[simp] theorem State.folded_w (s : State) : (s.folded).w = s.w := rfl
@[simp] theorem State.folded_t (s : State) : (s.folded).t = 0#6 := rfl
@[simp] theorem State.folded_phase (s : State) :
    (s.folded).phase = if s.blkcnt + 1#32 = s.nblk then phaseDone else phaseLoad := rfl
@[simp] theorem State.folded_blkcnt (s : State) : (s.folded).blkcnt = s.blkcnt + 1#32 := rfl
@[simp] theorem State.folded_nblk (s : State) : (s.folded).nblk = s.nblk := rfl
@[simp] theorem State.folded_errcode (s : State) : (s.folded).errcode = s.errcode := rfl
@[simp] theorem State.folded_ie (s : State) : (s.folded).ie = s.ie := rfl
@[simp] theorem State.folded_lenHi (s : State) : (s.folded).lenHi = s.lenHi := rfl
@[simp] theorem State.folded_lenLo (s : State) : (s.folded).lenLo = s.lenLo := rfl
@[simp] theorem State.folded_msg (s : State) : (s.folded).msg = s.msg := rfl
@[simp] theorem State.folded_fault (s : State) : (s.folded).fault = s.fault := rfl
@[simp] theorem State.folded_msgBytes (s : State) : (s.folded).msgBytes = s.msgBytes := rfl
@[simp] theorem State.folded_resp (s : State) : (s.folded).resp = s.resp := rfl
@[simp] theorem State.folded_inputs (s : State) : (s.folded).inputs = s.inputs := rfl

/-! ### Updates seen through the derived reads -/

@[simp] theorem State.respond_msgCell (s : State) (c : Resp) (v : Word) (k : Nat) :
    (s.respond c v).msgCell k = s.msgCell k := rfl

@[simp] theorem State.respond_len (s : State) (c : Resp) (v : Word) : (s.respond c v).len = s.len := rfl

@[simp] theorem State.pop_msgCell (s : State) (k : Nat) : s.pop.msgCell k = s.msgCell k := rfl

@[simp] theorem State.pop_len (s : State) : s.pop.len = s.len := rfl

/-- Before the first event of a list without pending events, taking the event off changes nothing. -/
theorem State.pop_of_inputs_nil (s : State) (h : s.inputs = []) : s.pop = s := by
  obtain ⟨core, params, resp, inputs⟩ := s
  simp_all [State.pop]

/-! ### PHASE codes -/

/-- The six PHASE codes differ (spec/10_state.md R34). -/
@[simp] theorem phases_distinct :
    phaseIdle ≠ phaseLoad ∧ phaseIdle ≠ phaseRound ∧ phaseIdle ≠ phaseFold ∧ phaseIdle ≠ phaseDone ∧
    phaseIdle ≠ phaseError ∧ phaseLoad ≠ phaseRound ∧ phaseLoad ≠ phaseFold ∧ phaseLoad ≠ phaseDone ∧
    phaseLoad ≠ phaseError ∧ phaseRound ≠ phaseFold ∧ phaseRound ≠ phaseDone ∧ phaseRound ≠ phaseError ∧
    phaseFold ≠ phaseDone ∧ phaseFold ≠ phaseError ∧ phaseDone ≠ phaseError := by
  decide

@[simp] theorem phases_distinct_symm :
    phaseLoad ≠ phaseIdle ∧ phaseRound ≠ phaseIdle ∧ phaseFold ≠ phaseIdle ∧ phaseDone ≠ phaseIdle ∧
    phaseError ≠ phaseIdle ∧ phaseRound ≠ phaseLoad ∧ phaseFold ≠ phaseLoad ∧ phaseDone ≠ phaseLoad ∧
    phaseError ≠ phaseLoad ∧ phaseFold ≠ phaseRound ∧ phaseDone ≠ phaseRound ∧ phaseError ≠ phaseRound ∧
    phaseDone ≠ phaseFold ∧ phaseError ≠ phaseFold ∧ phaseError ≠ phaseDone := by
  decide

end Sys2Proof.Machine
end

