-- ==== Sys2Proof/Laws/Access.lean ====
section
/-! SUPPORT. What the shared operations of the host interface can answer: the address map, Check, the commands and the four
transactions, each inverted once. -/

namespace Sys2Proof.Machine

/-! ### Address map -/

/-- The seven registers lie below 0x1C, four bytes each (spec/20_memory.md R81). -/
theorem regAt_eq_some {a : Nat} {r : Reg} (h : regAt a = some r) :
    a < 0x1C ∧ (r = .ctrl → a / 4 = 0) ∧ (r = .status → a / 4 = 1) ∧ (r = .lenHi → a / 4 = 2) ∧
      (r = .lenLo → a / 4 = 3) ∧ (r = .nblk → a / 4 = 4) ∧ (r = .blkcnt → a / 4 = 5) ∧ (r = .msgsz → a / 4 = 6) := by
  unfold regAt at h
  split at h <;> first | (cases h; refine ⟨by omega, ?_⟩; simp_all) | exact absurd h (by simp)

theorem regAt_eq_none {a : Nat} : regAt a = none ↔ 0x1C ≤ a := by
  unfold regAt
  split <;> simp_all <;> omega

/-- A MSG address lies in the message memory (R81). -/
theorem windowAt_msg {n a : Nat} (h : windowAt n a = some .msg) : msgBase ≤ a ∧ a - msgBase < n := by
  simp only [windowAt] at h
  split at h
  · simp at h
  split at h
  · simp at h
  split at h
  · simp at h
  split at h
  · simp only [msgBase] at *; omega
  · simp at h

theorem windowAt_of_msg {n a : Nat} (h1 : msgBase ≤ a) (h2 : a < msgBase + n) : windowAt n a = some .msg := by
  have e1 : ¬(hregBase ≤ a ∧ a < hregBase + 32) := by simp only [hregBase, msgBase] at *; omega
  have e2 : ¬(hexBase ≤ a ∧ a < hexBase + 64) := by simp only [hexBase, msgBase] at *; omega
  have e3 : ¬(bitsBase ≤ a ∧ a < bitsBase + 256) := by simp only [bitsBase, msgBase] at *; omega
  simp [windowAt, e1, e2, e3, h1, h2]

theorem regionOf_reg {n a : Word} {r : Reg} : regionOf n a = some (.reg r) ↔ regAt a.toNat = some r := by
  unfold regionOf
  split
  · next r' h => simp [h]
  · next h => simp [h]

theorem regionOf_window {n a : Word} {v : Window} :
    regionOf n a = some (.window v) ↔ 0x1C ≤ a.toNat ∧ windowAt n.toNat a.toNat = some v := by
  unfold regionOf
  split
  · next r' h => simp [regAt_eq_some h]
  · next h => simp [regAt_eq_none.mp h]

/-- A host address at or above MSG_BASE is in MSG or unmapped. -/
theorem regionOf_msg {n a : Word} :
    regionOf n a = some (.window .msg) ↔ msgBase ≤ a.toNat ∧ a.toNat < msgBase + n.toNat := by
  rw [regionOf_window]
  constructor
  · rintro ⟨_, h⟩
    have := windowAt_msg h
    omega
  · rintro ⟨h1, h2⟩
    exact ⟨by simp only [msgBase] at h1; omega, windowAt_of_msg h1 h2⟩

/-! ### Check -/

/-- What an accepted access has passed (spec/46_host_interface.md R314). -/
theorem check_ok {rw : Access} {size : BitVec 2} {addr wdata : Word} {s : State} {g : Region}
    (h : check rw size addr wdata s = .ok g) :
    (accessBytes size = 1 ∨ accessBytes size = 4) ∧ (accessBytes size = 4 → addr.toNat % 4 = 0) ∧
      regionOf s.msgBytes addr = some g ∧ (g.isReg = true → accessBytes size = 4) ∧
      (rw = .write → writeRefusal g wdata s.busy = none) := by
  simp only [check] at h
  split at h
  · cases h
  · next h1 =>
    split at h
    · cases h
    · next h2 =>
      split at h
      · cases h
      · next g' hg =>
        split at h
        · cases h
        · next h4 =>
          have hn : accessBytes size = 1 ∨ accessBytes size = 4 := by omega
          cases rw with
          | read =>
            cases h
            refine ⟨hn, by omega, hg, fun hr => ?_, by simp⟩
            rcases hn with hn | hn
            · exact absurd ⟨hr, hn⟩ h4
            · exact hn
          | write =>
            simp only at h
            split at h
            · cases h
            · next hw =>
              cases h
              refine ⟨hn, by omega, hg, fun hr => ?_, fun _ => hw⟩
              rcases hn with hn | hn
              · exact absurd ⟨hr, hn⟩ h4
              · exact hn

/-- A write that passes tests 5a to 5d goes to CTRL, LEN or MSG, the last two only while not BUSY. -/
theorem writeRefusal_none {g : Region} {wdata : Word} {busy : Bool} (h : writeRefusal g wdata busy = none) :
    (g = .reg .ctrl ∧ commandRefusal (cmdField wdata) busy = none) ∨
      ((g = .reg .lenHi ∨ g = .reg .lenLo ∨ g = .window .msg) ∧ busy = false) := by
  unfold writeRefusal at h
  split at h <;> simp_all

@[simp] theorem accessBytes_byte : accessBytes 0#2 = 1 := rfl

@[simp] theorem accessBytes_word : accessBytes 2#2 = 4 := rfl

/-- Sizes 2 and 8 are refused whatever else holds (test 1). -/
theorem check_reserved_size {rw : Access} {size : BitVec 2} {addr wdata : Word} {s : State}
    (h : size.getLsbD 0 = true) : check rw size addr wdata s = .error .errSize := by
  have h1 : size = 1#2 ∨ size = 3#2 := by revert h; revert size; decide
  rcases h1 with rfl | rfl <;> simp [check, accessBytes]

/-! ### Commands -/

@[simp] theorem commandRefusal_nop (b : Bool) : commandRefusal 0x0#4 b = none := by simp [commandRefusal]

@[simp] theorem commandRefusal_start (b : Bool) :
    commandRefusal 0x1#4 b = if b then some .errBusy else none := by cases b <;> simp [commandRefusal]

@[simp] theorem commandRefusal_clear (b : Bool) : commandRefusal 0x2#4 b = none := by simp [commandRefusal]

theorem commandRefusal_reserved {cmd : BitVec 4} (b : Bool) (h : 3 ≤ cmd.toNat) :
    commandRefusal cmd b = some .errCmd := by
  have h1 : cmd ≠ 1#4 := by rintro rfl; simp at h
  simp [commandRefusal, h1, h]

/-- NOP completes in every state. -/
theorem execNop_eq (ie : Bool) (s : State) : execNop ie s = .next ((s.withIe ie).respond .okay 0#32) := by
  simp [execNop, commandWrite]

/-- CLEAR completes in every state. -/
theorem execClear_eq (ie : Bool) (s : State) : execClear ie s = .next ((s.clear ie).respond .okay 0#32) := by
  simp [execClear, commandWrite]

/-- START is refused while BUSY and performed otherwise. -/
theorem execStart_eq (ie : Bool) (s : State) :
    execStart ie s =
      .next (if s.busy then s.respond .errBusy 0#32 else (s.start ie).respond .okay 0#32) := by
  cases h : s.busy <;> simp [execStart, commandWrite, h]

/-- START's three branches. -/
theorem start_cases (s : State) (ie : Bool) :
    (2 ^ 61 ≤ s.len ∧ s.start ie = s.enterError ie 1#4) ∨
      (s.len < 2 ^ 61 ∧ s.msgBytes.toNat < s.len ∧ s.start ie = s.enterError ie 2#4) ∨
      (s.len < 2 ^ 61 ∧ s.len ≤ s.msgBytes.toNat ∧
        s.start ie = s.seedJob ie (BitVec.ofNat 32 (chunkCount s.len))) := by
  unfold State.start
  split
  · next h => exact .inl ⟨h, rfl⟩
  · next h =>
    split
    · next h' => exact .inr (.inl ⟨by omega, h', rfl⟩)
    · next h' => exact .inr (.inr ⟨by omega, by omega, rfl⟩)

/-- A command write is refused by test 5c or 5d, or performed. -/
theorem commandWrite_next {cmd : BitVec 4} {s after t : State} (h : commandWrite cmd s after = .next t) :
    (∃ r, commandRefusal cmd s.busy = some r ∧ t = s.respond r 0#32) ∨
      (commandRefusal cmd s.busy = none ∧ t = after.respond .okay 0#32) := by
  unfold commandWrite at h
  split at h
  · next r hr => cases h; exact .inl ⟨r, hr, rfl⟩
  · next hr => cases h; exact .inr ⟨hr, rfl⟩

/-- A CTRL write is refused, or is a NOP, a START while not BUSY, or a CLEAR. -/
theorem ctrlDispatch_next {wdata : Word} {s t : State} (h : ctrlDispatch wdata s = .next t) :
    (∃ r, t = s.respond r 0#32) ∨
      (∃ ie, decodeCommand wdata = .nop ie ∧ t = (s.withIe ie).respond .okay 0#32) ∨
      (∃ ie, decodeCommand wdata = .start ie ∧ s.busy = false ∧ t = (s.start ie).respond .okay 0#32) ∨
      (∃ ie, decodeCommand wdata = .clear ie ∧ t = (s.clear ie).respond .okay 0#32) := by
  unfold ctrlDispatch at h
  split at h
  · next ie hd => rw [execNop_eq] at h; cases h; exact .inr (.inl ⟨ie, hd, rfl⟩)
  · next ie hd =>
    rw [execStart_eq] at h
    cases hb : s.busy <;> rw [hb] at h <;> cases h
    · exact .inr (.inr (.inl ⟨ie, hd, rfl, rfl⟩))
    · exact .inl ⟨_, rfl⟩
  · next ie hd => rw [execClear_eq] at h; cases h; exact .inr (.inr (.inr ⟨ie, hd, rfl⟩))
  all_goals (cases h; exact .inl ⟨_, rfl⟩)

/-! ### Transactions -/

/-- A read that completes changes the response port only. -/
theorem readOutcome_next {s t : State} {v : Except Fault Word} (h : readOutcome s v = .next t) :
    ∃ x, v = .ok x ∧ t = s.respond .okay x := by
  unfold readOutcome at h
  split at h
  · next x => cases h; exact ⟨x, rfl, rfl⟩
  · cases h

theorem execRd32_next {addr : Word} {s t : State} (h : execRd32 addr s = .next t) :
    ∃ r v, t = s.respond r v := by
  unfold execRd32 at h
  split at h
  · cases h; exact ⟨_, _, rfl⟩
  · cases h; exact ⟨_, _, rfl⟩
  · obtain ⟨x, -, rfl⟩ := readOutcome_next h; exact ⟨_, _, rfl⟩

theorem execRd8_next {addr : Word} {s t : State} (h : execRd8 addr s = .next t) :
    ∃ r v, t = s.respond r v := by
  unfold execRd8 at h
  split at h
  · cases h; exact ⟨_, _, rfl⟩
  · cases h; exact ⟨_, _, rfl⟩
  · obtain ⟨x, -, rfl⟩ := readOutcome_next h; exact ⟨_, _, rfl⟩

/-- A 1-byte write is refused, or stores one byte of MSG while not BUSY. -/
theorem execWr8_next {addr wdata : Word} {s t : State} (h : execWr8 addr wdata s = .next t) :
    (∃ r v, t = s.respond r v) ∨
      (s.busy = false ∧ msgBase ≤ addr.toNat ∧ addr.toNat - msgBase < s.msgBytes.toNat ∧
        t = (s.storeByte (addr.toNat - msgBase) (writeByte wdata)).respond .okay 0#32) := by
  unfold execWr8 at h
  split at h
  · cases h; exact .inl ⟨_, _, rfl⟩
  · next hc =>
    cases h
    obtain ⟨-, -, hg, -, hw⟩ := check_ok hc
    have hm := regionOf_msg.mp hg
    rcases writeRefusal_none (hw rfl) with ⟨hbad, -⟩ | ⟨-, hb⟩
    · simp at hbad
    · exact .inr ⟨hb, hm.1, by omega, rfl⟩
  · cases h; exact .inl ⟨_, _, rfl⟩
  all_goals cases h; exact .inl ⟨_, _, rfl⟩

/-- A 4-byte write is refused, is a CTRL command, sets a half of LEN, or stores four bytes of MSG; the last two only while not
BUSY. -/
theorem execWr32_next {addr wdata : Word} {s t : State} (h : execWr32 addr wdata s = .next t) :
    (∃ r v, t = s.respond r v) ∨
      (addr = ctrlAddr ∧ ctrlDispatch wdata s = .next t) ∨
      (addr = 0x008#32 ∧ s.busy = false ∧ t = (s.withLenHi wdata).respond .okay 0#32) ∨
      (addr = 0x00C#32 ∧ s.busy = false ∧ t = (s.withLenLo wdata).respond .okay 0#32) ∨
      (s.busy = false ∧ msgBase ≤ addr.toNat ∧ addr.toNat % 4 = 0 ∧ addr.toNat - msgBase < s.msgBytes.toNat ∧
        t = (s.storeWord (addr.toNat - msgBase) wdata).respond .okay 0#32) := by
  unfold execWr32 at h
  split at h
  · cases h; exact .inl ⟨_, _, rfl⟩
  · next hc =>
    obtain ⟨-, ha, hg, -, -⟩ := check_ok hc
    have h0 := (regAt_eq_some (regionOf_reg.mp hg)).2.1 rfl
    have h4 := ha rfl
    refine .inr (.inl ⟨BitVec.eq_of_toNat_eq ?_, h⟩)
    simp [ctrlAddr]; omega
  · next hc =>
    cases h
    obtain ⟨-, ha, hg, -, hw⟩ := check_ok hc
    have h0 := (regAt_eq_some (regionOf_reg.mp hg)).2.2.2.1 rfl
    have h4 := ha rfl
    rcases writeRefusal_none (hw rfl) with ⟨hbad, -⟩ | ⟨-, hb⟩
    · simp at hbad
    · exact .inr (.inr (.inl ⟨BitVec.eq_of_toNat_eq (by simp; omega), hb, rfl⟩))
  · next hc =>
    cases h
    obtain ⟨-, ha, hg, -, hw⟩ := check_ok hc
    have h0 := (regAt_eq_some (regionOf_reg.mp hg)).2.2.2.2.1 rfl
    have h4 := ha rfl
    rcases writeRefusal_none (hw rfl) with ⟨hbad, -⟩ | ⟨-, hb⟩
    · simp at hbad
    · exact .inr (.inr (.inr (.inl ⟨BitVec.eq_of_toNat_eq (by simp; omega), hb, rfl⟩)))
  · next hc =>
    cases h
    obtain ⟨-, ha, hg, -, hw⟩ := check_ok hc
    have hm := regionOf_msg.mp hg
    rcases writeRefusal_none (hw rfl) with ⟨hbad, -⟩ | ⟨-, hb⟩
    · simp at hbad
    · exact .inr (.inr (.inr (.inr ⟨hb, hm.1, ha rfl, by omega, rfl⟩)))
  all_goals cases h; exact .inl ⟨_, _, rfl⟩

/-- A reserved size is a refusal. -/
theorem execRsvdSize_next {desc : BitVec 3} {addr wdata : Word} {s t : State}
    (h : execRsvdSize desc addr wdata s = .next t) : ∃ r v, t = s.respond r v := by
  unfold execRsvdSize at h
  split at h <;> (cases h; exact ⟨_, _, rfl⟩)

end Sys2Proof.Machine
end

