-- ==== Sys2Proof/Laws/PerInstr.lean ====
section
/-! SUPPORT. The family TableRow: the encoder puts every well-formed instruction into the interface and under the row that
spec/opcode_table.json gives it. -/

namespace Sys2Proof.Laws

/-- The code word of a well-formed instruction is listed by a row of the opcode table with the instruction's mnemonic and
interface. -/
def TableRow.Statement (i : Instr) : Prop :=
  i.wellFormed = true →
    ∃ row ∈ opcodeTable, row.mnemonic = i.mnemonic ∧ row.interface = i.interface ∧
      row.matches (encode i).interface (encode i).selector = true

/-- The command field of a command's write data is the command. -/
theorem cmdField_ctrlWord (cmd : BitVec 4) (ie : Bool) : cmdField (ctrlWord cmd ie) = cmd := by
  revert cmd ie; decide

/-- The IE field of a command's write data is its bit. -/
theorem ieField_ctrlWord (cmd : BitVec 4) (ie : Bool) : ieField (ctrlWord cmd ie) = ie := by
  revert cmd ie; decide

theorem TableRow.rd8 (addr : Word) : TableRow.Statement (.rd8 addr) :=
  fun _ => ⟨⟨"RD8", .txn, 0b111, 0b000⟩, by simp [opcodeTable], rfl, rfl, by
    simp [OpcodeRow.matches, encode, CodeWord.interface, CodeWord.selector]⟩

theorem TableRow.rd32 (addr : Word) : TableRow.Statement (.rd32 addr) :=
  fun _ => ⟨⟨"RD32", .txn, 0b111, 0b010⟩, by simp [opcodeTable], rfl, rfl, by
    simp [OpcodeRow.matches, encode, CodeWord.interface, CodeWord.selector]⟩

theorem TableRow.wr8 (addr wdata : Word) : TableRow.Statement (.wr8 addr wdata) :=
  fun _ => ⟨⟨"WR8", .txn, 0b111, 0b100⟩, by simp [opcodeTable], rfl, rfl, by
    simp [OpcodeRow.matches, encode, CodeWord.interface, CodeWord.selector]⟩

theorem TableRow.wr32 (addr wdata : Word) : TableRow.Statement (.wr32 addr wdata) :=
  fun _ => ⟨⟨"WR32", .txn, 0b111, 0b110⟩, by simp [opcodeTable], rfl, rfl, by
    simp [OpcodeRow.matches, encode, CodeWord.interface, CodeWord.selector]⟩

theorem TableRow.rsvdSize (desc : BitVec 3) (addr wdata : Word) : TableRow.Statement (.rsvdSize desc addr wdata) := by
  intro h
  refine ⟨⟨"RSVD_SIZE__RD16__RD64__WR16__WR64__refused_with_ERR_SIZE", .txn, 0b001, 0b001⟩, by simp [opcodeTable],
    rfl, rfl, ?_⟩
  have key : ∀ d : BitVec 3, d.getLsbD 0 = true →
      OpcodeRow.matches ⟨"", .txn, 0b001, 0b001⟩ .txn d.toNat = true := by decide
  exact key desc h

theorem TableRow.nop (ie : Bool) : TableRow.Statement (.nop ie) := by
  intro _
  refine ⟨⟨"NOP", .ctrlCmd, 0xF, 0x0⟩, by simp [opcodeTable], rfl, rfl, ?_⟩
  simp only [encode, CodeWord.selector, cmdField_ctrlWord]; rfl

theorem TableRow.start (ie : Bool) : TableRow.Statement (.start ie) := by
  intro _
  refine ⟨⟨"START", .ctrlCmd, 0xF, 0x1⟩, by simp [opcodeTable], rfl, rfl, ?_⟩
  simp only [encode, CodeWord.selector, cmdField_ctrlWord]; rfl

theorem TableRow.clear (ie : Bool) : TableRow.Statement (.clear ie) := by
  intro _
  refine ⟨⟨"CLEAR", .ctrlCmd, 0xF, 0x2⟩, by simp [opcodeTable], rfl, rfl, ?_⟩
  simp only [encode, CodeWord.selector, cmdField_ctrlWord]; rfl

theorem TableRow.rsvdCmd3 (ie : Bool) : TableRow.Statement (.rsvdCmd3 ie) := by
  intro _
  refine ⟨⟨"RSVD_CMD_3__refused_with_ERR_CMD", .ctrlCmd, 0xF, 0x3⟩, by simp [opcodeTable], rfl, rfl, ?_⟩
  simp only [encode, CodeWord.selector, cmdField_ctrlWord]; rfl

theorem TableRow.rsvdCmd4to7 (cmd : BitVec 4) (ie : Bool) : TableRow.Statement (.rsvdCmd4to7 cmd ie) := by
  intro h
  refine ⟨⟨"RSVD_CMD_4_7__refused_with_ERR_CMD", .ctrlCmd, 0xC, 0x4⟩, by simp [opcodeTable], rfl, rfl, ?_⟩
  have key : ∀ c : BitVec 4, (!c.getLsbD 3 && c.getLsbD 2) = true →
      OpcodeRow.matches ⟨"", .ctrlCmd, 0xC, 0x4⟩ .ctrlCmd c.toNat = true := by decide
  simp only [encode, CodeWord.selector, cmdField_ctrlWord]
  exact key cmd h

theorem TableRow.rsvdCmd8to15 (cmd : BitVec 4) (ie : Bool) : TableRow.Statement (.rsvdCmd8to15 cmd ie) := by
  intro h
  refine ⟨⟨"RSVD_CMD_8_15__refused_with_ERR_CMD", .ctrlCmd, 0x8, 0x8⟩, by simp [opcodeTable], rfl, rfl, ?_⟩
  have key : ∀ c : BitVec 4, c.getLsbD 3 = true →
      OpcodeRow.matches ⟨"", .ctrlCmd, 0x8, 0x8⟩ .ctrlCmd c.toNat = true := by decide
  simp only [encode, CodeWord.selector, cmdField_ctrlWord]
  exact key cmd h

theorem TableRow.idle : TableRow.Statement .idle :=
  fun _ => ⟨⟨"IDLE", .phase, 0b111, 0b000⟩, by simp [opcodeTable], rfl, rfl, by
    simp [OpcodeRow.matches, encode, CodeWord.interface, CodeWord.selector]⟩

theorem TableRow.load : TableRow.Statement .load :=
  fun _ => ⟨⟨"LOAD", .phase, 0b111, 0b001⟩, by simp [opcodeTable], rfl, rfl, by
    simp [OpcodeRow.matches, encode, CodeWord.interface, CodeWord.selector]⟩

theorem TableRow.round : TableRow.Statement .round :=
  fun _ => ⟨⟨"ROUND", .phase, 0b111, 0b010⟩, by simp [opcodeTable], rfl, rfl, by
    simp [OpcodeRow.matches, encode, CodeWord.interface, CodeWord.selector]⟩

theorem TableRow.fold : TableRow.Statement .fold :=
  fun _ => ⟨⟨"FOLD", .phase, 0b111, 0b011⟩, by simp [opcodeTable], rfl, rfl, by
    simp [OpcodeRow.matches, encode, CodeWord.interface, CodeWord.selector]⟩

theorem TableRow.done : TableRow.Statement .done :=
  fun _ => ⟨⟨"DONE", .phase, 0b111, 0b100⟩, by simp [opcodeTable], rfl, rfl, by
    simp [OpcodeRow.matches, encode, CodeWord.interface, CodeWord.selector]⟩

theorem TableRow.error : TableRow.Statement .error :=
  fun _ => ⟨⟨"ERROR", .phase, 0b111, 0b101⟩, by simp [opcodeTable], rfl, rfl, by
    simp [OpcodeRow.matches, encode, CodeWord.interface, CodeWord.selector]⟩

theorem TableRow.rsvdPhase (code : BitVec 3) : TableRow.Statement (.rsvdPhase code) := by
  intro h
  refine ⟨⟨"RSVD_PHASE__6_or_7__Fault_ReservedPhase___unreachable", .phase, 0b110, 0b110⟩, by simp [opcodeTable],
    rfl, rfl, ?_⟩
  have key : ∀ c : BitVec 3, (c.getLsbD 2 && c.getLsbD 1) = true →
      OpcodeRow.matches ⟨"", .phase, 0b110, 0b110⟩ .phase c.toNat = true := by decide
  exact key code h

end Sys2Proof.Laws
end

