-- ==== Sys2Proof/Laws/Sequencer.lean ====
section
/-! SUPPORT. What LOAD reads and writes, when it faults, and what one step of the machine can do. -/

namespace Sys2Proof.Machine

/-! ### LOAD -/

/-- A padded byte is missing only where the message cell it is read from is unwritten (spec/41_bitcodec_padding_packing.md
R165). -/
theorem padByte_eq_none {msg : Nat → Option Byte} {len n k : Nat} :
    padByte msg len n k = none ↔ k < len ∧ msg k = none := by
  unfold padByte
  split
  · next h => simp [h]
  · next h => split <;> (try split) <;> (try split) <;> simp [h]

/-- Padding reads message cells below L only (spec/46_host_interface.md R318). -/
theorem padByte_congr {msg msg' : Nat → Option Byte} {len n : Nat} (h : ∀ k, k < len → msg k = msg' k) (k : Nat) :
    padByte msg len n k = padByte msg' len n k := by
  unfold padByte
  split
  · next hk => exact h k hk
  · rfl

theorem chunkWord_congr {msg msg' : Nat → Option Byte} {len n : Nat} (h : ∀ k, k < len → msg k = msg' k) (b j : Nat) :
    chunkWord msg len n b j = chunkWord msg' len n b j := by
  simp only [chunkWord, padByte_congr h]

/-- A chunk word is missing only where one of its four bytes is. -/
theorem chunkWord_eq_none {msg : Nat → Option Byte} {len n b j : Nat} :
    chunkWord msg len n b j = none ↔ ∃ i, i < 4 ∧ padByte msg len n (64 * b + 4 * j + i) = none := by
  constructor
  · intro h
    by_contra hne
    have hs : ∀ i, i < 4 → ∃ x, padByte msg len n (64 * b + 4 * j + i) = some x := by
      intro i hi
      cases hp : padByte msg len n (64 * b + 4 * j + i) with
      | none => exact absurd ⟨i, hi, hp⟩ hne
      | some x => exact ⟨x, rfl⟩
    obtain ⟨x0, h0⟩ := hs 0 (by omega)
    obtain ⟨x1, h1⟩ := hs 1 (by omega)
    obtain ⟨x2, h2⟩ := hs 2 (by omega)
    obtain ⟨x3, h3⟩ := hs 3 (by omega)
    simp only [Nat.add_zero] at h0
    simp [chunkWord, h0, h1, h2, h3] at h
  · rintro ⟨i, hi, hp⟩
    have hcase : i = 0 ∨ i = 1 ∨ i = 2 ∨ i = 3 := by omega
    unfold chunkWord
    rcases hcase with rfl | rfl | rfl | rfl
    · simp only [Nat.add_zero] at hp; simp [hp]
    all_goals
      simp only [hp, bind, Option.bind]
      repeat' split
      all_goals rfl

theorem loadWords_succ (word : Nat → Option Word) (n j : Nat) (w : Vector Word 64) :
    loadWords word (n + 1) j w = (word j).bind (fun x => loadWords word n (j + 1) (w.setIfInBounds j x)) := rfl

/-- What the loaded register file holds: the n words from j up replaced, the others kept (spec/45_sequencer.md R282). -/
theorem loadWords_some {word : Nat → Option Word} {n j : Nat} {w w' : Vector Word 64} (hn : j + n ≤ 64)
    (h : loadWords word n j w = some w') (i : Nat) (hi : i < 64) :
    (j ≤ i → i < j + n → word i = some w'[i]) ∧ (i < j ∨ j + n ≤ i → w'[i] = w[i]) := by
  induction n generalizing j w with
  | zero => simp only [loadWords] at h; cases h; exact ⟨by omega, fun _ => rfl⟩
  | succ n ih =>
    rw [loadWords_succ] at h
    obtain ⟨x, hx, h⟩ := Option.bind_eq_some_iff.mp h
    obtain ⟨h1, h2⟩ := ih (by omega) h
    refine ⟨fun hji hlt => ?_, fun hor => ?_⟩
    · by_cases hij : i = j
      · subst hij; rw [h2 (.inl (by omega))]; simp [hx]
      · exact h1 (by omega) (by omega)
    · rw [h2 (by omega), Vector.getElem_setIfInBounds, if_neg (by omega)]

/-- LOAD misses a word only where one of the n words from j up is missing. -/
theorem loadWords_eq_none {word : Nat → Option Word} {n j : Nat} {w : Vector Word 64} :
    loadWords word n j w = none ↔ ∃ i, j ≤ i ∧ i < j + n ∧ word i = none := by
  induction n generalizing j w with
  | zero =>
    refine ⟨fun h => ?_, fun ⟨i, h1, h2, _⟩ => absurd h1 (by omega)⟩
    simp [loadWords] at h
  | succ n ih =>
    rw [loadWords_succ]
    cases hx : word j with
    | none => exact ⟨fun _ => ⟨j, le_refl j, by omega, hx⟩, fun _ => rfl⟩
    | some x =>
      rw [Option.bind_some, ih]
      constructor
      · rintro ⟨i, h1, h2, h3⟩; exact ⟨i, by omega, by omega, h3⟩
      · rintro ⟨i, h1, h2, h3⟩
        by_cases hij : i = j
        · subst hij; rw [hx] at h3; cases h3
        · exact ⟨i, by omega, by omega, h3⟩

theorem loadOutcome_cases (s : State) (o : Option (Vector Word 64)) :
    (∃ w, o = some w ∧ loadOutcome s o = .next (s.loaded w)) ∨
      (o = none ∧ loadOutcome s o = .fault .unwrittenMessageByte) := by
  cases o with
  | some w => exact .inl ⟨w, rfl, rfl⟩
  | none => exact .inr ⟨rfl, rfl⟩

/-- LOAD completes, or faults on an unwritten message byte. -/
theorem execLoad_cases (s : State) :
    (∃ w, s.loadedFile = some w ∧ execLoad s = .next (s.loaded w)) ∨
      (s.loadedFile = none ∧ execLoad s = .fault .unwrittenMessageByte) :=
  loadOutcome_cases s s.loadedFile

/-- The register file that LOAD leaves. -/
theorem loadedFile_some {s : State} {w : Vector Word 64} (h : s.loadedFile = some w) :
    (∀ j (hj : j < 64), j < 16 → chunkWord s.msgCell s.len s.nblk.toNat s.blkcnt.toNat j = some w[j]) ∧
      ∀ j (hj : j < 64), 16 ≤ j → w[j] = s.w[j] :=
  ⟨fun j hj h16 => (loadWords_some (by omega) h j hj).1 (by omega) (by omega),
    fun j hj h16 => (loadWords_some (by omega) h j hj).2 (by omega)⟩

/-- LOAD faults exactly where a byte of its chunk below L is unwritten. -/
theorem loadedFile_eq_none {s : State} :
    s.loadedFile = none ↔
      ∃ k, 64 * s.blkcnt.toNat ≤ k ∧ k < 64 * s.blkcnt.toNat + 64 ∧ k < s.len ∧ s.msgCell k = none := by
  rw [State.loadedFile, loadWords_eq_none]
  constructor
  · rintro ⟨j, -, hj, hw⟩
    obtain ⟨i, hi, hp⟩ := chunkWord_eq_none.mp hw
    obtain ⟨hlt, hm⟩ := padByte_eq_none.mp hp
    exact ⟨64 * s.blkcnt.toNat + 4 * j + i, by omega, by omega, hlt, hm⟩
  · rintro ⟨k, h1, h2, h3, h4⟩
    refine ⟨(k - 64 * s.blkcnt.toNat) / 4, by omega, by omega, chunkWord_eq_none.mpr ⟨k % 4, by omega, ?_⟩⟩
    have hk : 64 * s.blkcnt.toNat + 4 * ((k - 64 * s.blkcnt.toNat) / 4) + k % 4 = k := by omega
    rw [hk]
    exact padByte_eq_none.mpr ⟨h3, h4⟩

/-! ### One step -/

/-- What one step of an unfaulted machine is, by its next event. -/
theorem step_cases {s : State} (hf : s.fault = none) :
    (s.nextEvent = .clock ∧ step s = exec s.microOp s.pop) ∨
      (∃ q, s.nextEvent = .request q ∧ step s = exec (requestInstr q) s.pop) ∨
      (s.nextEvent = .reset ∧ step s = .next s.pop.resetEvent) := by
  unfold step
  rw [hf]
  cases h : s.nextEvent with
  | clock => exact .inl ⟨rfl, rfl⟩
  | request q => exact .inr (.inl ⟨q, rfl, rfl⟩)
  | reset => exact .inr (.inr ⟨rfl, rfl⟩)

/-- A step that answers a next state started without a fault mark. -/
theorem step_next_unfaulted {s t : State} (h : step s = .next t) : s.fault = none := by
  unfold step at h
  split at h
  · cases h
  · next hf => exact hf

theorem nextEvent_of_nil {s : State} (h : s.inputs = []) : s.nextEvent = .clock := by
  simp [State.nextEvent, h]

theorem nextEvent_of_cons {s : State} {e : Event} {rest : List Event} (h : s.inputs = e :: rest) :
    s.nextEvent = e := by
  simp [State.nextEvent, h]

/-- A core step runs the micro-operation of PHASE (spec/45_sequencer.md R288). -/
theorem microOp_cases (s : State) :
    (s.phase = phaseIdle ∧ s.microOp = .idle) ∨ (s.phase = phaseLoad ∧ s.microOp = .load) ∨
      (s.phase = phaseRound ∧ s.microOp = .round) ∨ (s.phase = phaseFold ∧ s.microOp = .fold) ∨
      (s.phase = phaseDone ∧ s.microOp = .done) ∨ (s.phase = phaseError ∧ s.microOp = .error) ∨
      (6 ≤ s.phase.toNat ∧ s.microOp = .rsvdPhase s.phase) := by
  have key : ∀ p : BitVec 3,
      (p = phaseIdle ∧ decodePhase p = .idle) ∨ (p = phaseLoad ∧ decodePhase p = .load) ∨
      (p = phaseRound ∧ decodePhase p = .round) ∨ (p = phaseFold ∧ decodePhase p = .fold) ∨
      (p = phaseDone ∧ decodePhase p = .done) ∨ (p = phaseError ∧ decodePhase p = .error) ∨
      (6 ≤ p.toNat ∧ decodePhase p = .rsvdPhase p) := by decide
  exact key s.phase

/-- No host request is a micro-operation. -/
theorem requestInstr_interface (q : Request) : (requestInstr q).interface ≠ .phase := by
  unfold requestInstr codeOfRequest
  split
  · simp only [decode, decodeCommand]; split <;> simp [Instr.interface]
  · simp only [decode, decodeDesc]; split <;> simp [Instr.interface]

end Sys2Proof.Machine
end

