-- ==== Sys2Proof/Tests/Slice0.lean ====
section
/-! SUPPORT. The model's own tests: ill-formed terms, words written out from the encodings, single steps with the values of
spec/95_test_vectors.md and of the rules' examples, and a witness for the hypotheses of every statement that has some. -/

namespace Sys2Proof.Tests

open Sys2Proof Sys2Proof.Machine

/-! ### Small states -/

/-- Whether an outcome is a next state of which `p` holds. -/
def next (o : Host.Outcome State Fault Refusal) (p : State → Bool) : Bool :=
  match o with
  | .next t => p t
  | .fault _ => false
  | .refused _ => false

theorem next_exists {o : Host.Outcome State Fault Refusal} (h : next o (fun _ => true) = true) : ∃ t, o = .next t := by
  cases o with
  | next t => exact ⟨t, rfl⟩
  | fault f => cases h
  | refused r => cases h

/-- Whether an outcome is the given fault. -/
def faults (o : Host.Outcome State Fault Refusal) (f : Fault) : Bool :=
  match o with
  | .next _ => false
  | .fault g => f == g
  | .refused _ => false

/-- Whether an outcome is a next state with this response. -/
def responds (o : Host.Outcome State Fault Refusal) (code : Resp) (rdata : Word) : Bool :=
  next o (fun t => t.resp == some ⟨code, rdata⟩)

/-- Reset, with PHASE set. -/
def inPhase (p : BitVec 3) : State := { State.reset with phase := p }

/-- The message "abc". -/
def abc : List Byte := [0x61#8, 0x62#8, 0x63#8]

/-- Right after the accepted START of the job "abc" (program P2). -/
def abcStarted : State :=
  { State.reset with
    phase := phaseLoad, h := ivTable, nblk := 1#32, lenLo := 3#32, msg := [(0, 0x61#8), (1, 0x62#8), (2, 0x63#8)] }

/-- The job "abc" in round 0: W[0..15] of V-PAD-2, a..h = IV. -/
def abcRound : State :=
  { abcStarted with
    phase := phaseRound, vars := varsOfH ivTable
    w := ((Vector.replicate 64 0#32).set 0 0x61626380#32).set 15 0x00000018#32 }

/-- The job "abc" in FOLD: a..h after round 63 (V-RND-4). -/
def abcFold : State :=
  { abcStarted with
    phase := phaseFold, t := 63#6
    vars := ⟨0x506E3058, 0xD39A2165, 0x04D24D6C, 0xB85E2CE9, 0x5EF50F24, 0xFB121210, 0x948D25B6, 0x961F4894⟩ }

/-- The digest of "abc" in H (V-RND-5). -/
def abcDigest : State :=
  { State.reset with
    phase := phaseDone, blkcnt := 1#32, nblk := 1#32
    h := #v[0xBA7816BF, 0x8F01CFEA, 0x414140DE, 0x5DAE2223, 0xB00361A3, 0x96177A9C, 0xB410FF61, 0xF20015AD] }

/-! ### WellFormed: an ill-formed term for each check -/

theorem test_wf_rsvdSize : (Instr.rsvdSize 0b010#3 0#32 0#32).wellFormed = false := by decide
theorem test_wf_rsvdCmd4to7 : (Instr.rsvdCmd4to7 0x3#4 false).wellFormed = false := by decide
theorem test_wf_rsvdCmd4to7_above : (Instr.rsvdCmd4to7 0x8#4 false).wellFormed = false := by decide
theorem test_wf_rsvdCmd8to15 : (Instr.rsvdCmd8to15 0x7#4 true).wellFormed = false := by decide
theorem test_wf_rsvdPhase : (Instr.rsvdPhase 0b101#3).wellFormed = false := by decide

/-! ### Decoding: a word of every row, written out from R122, R123 and R125 -/

theorem test_decode_rd8 : decode (.txn ⟨0b000#3, 0x0000013F#32, 0#32⟩) = .rd8 0x0000013F#32 := by decide
theorem test_decode_rd32 : decode (.txn ⟨0b010#3, 0x00000100#32, 0#32⟩) = .rd32 0x00000100#32 := by decide
theorem test_decode_wr8 :
    decode (.txn ⟨0b100#3, 0x80000FFF#32, 0x000000AB#32⟩) = .wr8 0x80000FFF#32 0x000000AB#32 := by decide
theorem test_decode_wr32 :
    decode (.txn ⟨0b110#3, 0x80000000#32, 0x61626300#32⟩) = .wr32 0x80000000#32 0x61626300#32 := by decide
theorem test_decode_rsvdSize_rd16 : decode (.txn ⟨0b001#3, 3#32, 0#32⟩) = .rsvdSize 0b001#3 3#32 0#32 := by decide
theorem test_decode_rsvdSize_wr64 : decode (.txn ⟨0b111#3, 8#32, 9#32⟩) = .rsvdSize 0b111#3 8#32 9#32 := by decide
theorem test_decode_nop : decode (.ctrlCmd 0b1111_1111_1111_1111_1111_1111_1111_0000#32) = .nop true := by decide
theorem test_decode_start : decode (.ctrlCmd 0b0000_0001_0000_0001#32) = .start true := by decide
theorem test_decode_clear : decode (.ctrlCmd 0b0000_0000_0000_0010#32) = .clear false := by decide
theorem test_decode_rsvdCmd3 : decode (.ctrlCmd 0b0000_0001_0000_0011#32) = .rsvdCmd3 true := by decide
theorem test_decode_rsvdCmd4to7 : decode (.ctrlCmd 0b0000_0000_0000_0101#32) = .rsvdCmd4to7 0b0101#4 false := by decide
theorem test_decode_rsvdCmd8to15 :
    decode (.ctrlCmd 0b0000_0001_1111_1010#32) = .rsvdCmd8to15 0b1010#4 true := by decide
theorem test_decode_idle : decode (.phase 0b000#3) = .idle := by decide
theorem test_decode_load : decode (.phase 0b001#3) = .load := by decide
theorem test_decode_round : decode (.phase 0b010#3) = .round := by decide
theorem test_decode_fold : decode (.phase 0b011#3) = .fold := by decide
theorem test_decode_done : decode (.phase 0b100#3) = .done := by decide
theorem test_decode_error : decode (.phase 0b101#3) = .error := by decide
theorem test_decode_rsvdPhase : decode (.phase 0b111#3) = .rsvdPhase 0b111#3 := by decide

/-- A request to CTRL is a command, one to the next register is not (R129). -/
theorem test_codeOfRequest :
    codeOfRequest ⟨0b110#3, 0#32, 0x101#32⟩ = .ctrlCmd 0x101#32 ∧
      codeOfRequest ⟨0b110#3, 4#32, 0x101#32⟩ = .txn ⟨0b110#3, 4#32, 0x101#32⟩ := by decide

/-- Rows read as numbers: a PHASE code, a CTRL write's data, a whole request, and numbers that are no code word. -/
theorem test_decodeTableWord :
    decodeTableWord 8 1 = some .load ∧ decodeTableWord 8 8 = some (.rsvdCmd8to15 8#4 false) ∧
      decodeTableWord 32 0x101 = some (.start true) ∧
      decodeTableWord 72 (2 + 256 * 4) = some (.rd32 4#32) ∧ decodeTableWord 72 8 = none ∧
      decodeTableWord 8 256 = none ∧ decodeTableWord 80 0 = none := by decide

/-! ### Single steps -/

/-- V-FMT-1. -/
theorem test_rd8_hex : responds (exec (.rd8 0x13F#32) abcDigest) .okay 0x64#32 := by decide
/-- V-HOST-1, test 4. -/
theorem test_rd8_register : responds (exec (.rd8 0x004#32) State.reset) .errSize 0#32 := by decide
/-- V-FMT-1. -/
theorem test_rd32_bits : responds (exec (.rd32 0x2FC#32) abcDigest) .okay 0x31313031#32 := by decide
/-- V-SEQ-1: STATUS of a finished job with IE = 1. -/
theorem test_rd32_status :
    responds (exec (.rd32 0x004#32) { abcDigest with ie := true }) .okay 0x0000004A#32 := by decide
/-- V-HOST-1: the last MSG cell. -/
theorem test_wr8_last_cell :
    next (exec (.wr8 0x80000FFF#32 0x123400AB#32) State.reset) (fun t => t.msgCell 4095 == some 0xAB#8) := by decide
/-- V-HOST-1, test 5b. -/
theorem test_wr8_busy : responds (exec (.wr8 0x80000000#32 0#32) abcStarted) .errBusy 0#32 := by decide
/-- R312's example. -/
theorem test_wr32_msg :
    next (exec (.wr32 0x80000000#32 0x61626300#32) State.reset)
      (fun t => t.msg == [(0, 0x61#8), (1, 0x62#8), (2, 0x63#8), (3, 0x00#8)]) := by decide
/-- V-HOST-1, test 5a. -/
theorem test_wr32_readonly : responds (exec (.wr32 0x018#32 1#32) State.reset) .errReadonly 0#32 := by decide
/-- V-HOST-1: the size test comes before the alignment test. -/
theorem test_rsvdSize : responds (exec (.rsvdSize 0b001#3 0x003#32 0#32) State.reset) .errSize 0#32 := by decide
/-- R320: SETIE 1 while BUSY. -/
theorem test_nop_busy :
    next (exec (.nop true) abcStarted) (fun t => t.ie && t.status == 0x00000011#32) := by decide
/-- V-PAD-5 and V-SEQ-1: L = 2^61 is oversize. -/
theorem test_start_oversize :
    next (exec (.start true) { State.reset with lenHi := 0x20000000#32 }) (fun t => t.status == 0x0000015C#32) := by
  decide
/-- V-PAD-5: L = MSG_BYTES = 4096 is accepted, NBLK = 65. -/
theorem test_start_full :
    next (exec (.start false) { State.reset with lenLo := 4096#32 })
      (fun t => t.nblk == 65#32 && t.h == ivTable && t.status == 0x00000011#32) := by decide
/-- R322: CLEAR of a running job. -/
theorem test_clear_busy :
    next (exec (.clear true) abcFold)
      (fun t => t.status == 0#32 && t.ie && t.h == Vector.replicate 8 0#32 && t.msg == abcFold.msg) := by decide
/-- V-HOST-1, test 5d. -/
theorem test_rsvdCmd3 :
    next (exec (.rsvdCmd3 true) State.reset) (fun t => t.resp == some ⟨.errCmd, 0#32⟩ && !t.ie) := by decide
theorem test_rsvdCmd4to7 : responds (exec (.rsvdCmd4to7 4#4 true) abcStarted) .errCmd 0#32 := by decide
theorem test_rsvdCmd8to15 : responds (exec (.rsvdCmd8to15 15#4 true) abcFold) .errCmd 0#32 := by decide
theorem test_idle : next (exec .idle State.reset) (fun t => t == State.reset) := by decide
set_option maxRecDepth 4000 in
/-- V-PAD-2: the words of "abc". -/
theorem test_load_abc :
    next (exec .load abcStarted)
      (fun t => t.w[0] == 0x61626380#32 && t.w[14] == 0#32 && t.w[15] == 0x18#32 && t.status == 0x00000021#32) := by
  decide
/-- R282: an unwritten byte below L. -/
theorem test_load_unwritten : faults (exec .load { abcStarted with msg := [(0, 0x61#8)] }) .unwrittenMessageByte := by
  decide
/-- V-RND-4, round 0. -/
theorem test_round_first :
    next (exec .round abcRound)
      (fun t => t.vars == ⟨0x5D6AEBCD, 0x6A09E667, 0xBB67AE85, 0x3C6EF372, 0xFA2A4622, 0x510E527F, 0x9B05688C,
        0x1F83D9AB⟩ && t.t == 1#6) := by decide
/-- V-SCH-3: W[17]. -/
theorem test_round_expands :
    next (exec .round { abcRound with t := 17#6 }) (fun t => t.w[17] == 0x000F0000#32 && t.w[16] == 0#32) := by decide
/-- V-RND-5. -/
theorem test_fold_abc :
    next (exec .fold abcFold) (fun t => t.h == abcDigest.h && t.blkcnt == 1#32 && t.status == 0x00000042#32) := by
  decide
/-- R284: a job with chunks to go returns to LOAD. -/
theorem test_fold_more : next (exec .fold { abcFold with nblk := 2#32 }) (fun t => t.status == 0x00000011#32) := by
  decide
theorem test_done : next (exec .done abcDigest) (fun t => t == abcDigest) := by decide
theorem test_error : next (exec .error (inPhase phaseError)) (fun t => t == inPhase phaseError) := by decide
theorem test_rsvdPhase : faults (exec (.rsvdPhase 6#3) State.reset) .reservedPhase := by decide

/-- Reset as an event (R390): LEN and MSG go, MSGSZ stays. -/
theorem test_reset_event :
    next (step { abcFold with inputs := [.reset] }) (fun t => t == { State.reset with inputs := [] }) := by decide
/-- R357: a fault leaves only its mark. -/
theorem test_settle :
    (inPhase 7#3).settle == { inPhase 7#3 with fault := some .reservedPhase } := by decide
/-- The word placed is the next instruction run. -/
theorem test_withFetchWord :
    next (step (State.reset.withFetchWord 32 0x101)) (fun t => t.phase == phaseLoad && t.ie) ∧
      next (step (State.reset.withFetchWord 8 2)) (fun t => t.phase == phaseRound && t.t == 1#6) := by decide

/-- V-PRIM-2: the amounts of R12 and R13 at their ends. -/
theorem test_rotr_shr :
    rotr 0x00000001#32 1 = 0x80000000#32 ∧ rotr 0x80000000#32 31 = 0x00000001#32 ∧
      rotr 0x12345678#32 25 = 0x1A2B3C09#32 ∧ shr 0x12345678#32 22 = 0x00000048#32 := by decide
/-- V-PAD-4. -/
theorem test_bit_codec :
    toBits [0x80#8, 0x01#8] =
        [true, false, false, false, false, false, false, false, false, false, false, false, false, false, false, true] ∧
      fromBits (toBits [0x00#8, 0xFF#8, 0x5A#8]) = [0x00#8, 0xFF#8, 0x5A#8] ∧
      packWords (toBits [0x61#8, 0x62#8, 0x63#8, 0x80#8]) = [0x61626380#32] := by decide
/-- V-PAD-1 and V-PAD-3: the last length byte of L = 55 and of L = 56. -/
theorem test_padding_boundary :
    chunkCount 55 = 1 ∧ chunkCount 56 = 2 ∧ chunkCount 4096 = 65 ∧
      padByte (fun _ => none) 55 1 55 = some 0x80#8 ∧ padByte (fun _ => none) 55 1 63 = some 0xB8#8 ∧
      padByte (fun _ => none) 56 2 126 = some 0x01#8 := by decide

/-! ### Witnesses: states and operands that meet the hypotheses of each statement -/

/-- The invariant holds after a job. -/
theorem abcDigest_inv : abcDigest.Inv where
  memoryRising := by decide
  memoryBound := by decide
  capacity := by decide
  phaseLegal := by decide
  errcodeLegal := by decide
  roundIndex := by decide
  runningJob := by decide
  finishedJob := by decide
  chunkBound := by decide
  quietJob := by decide

/-- The invariant holds in the middle of a job. -/
theorem abcFold_inv : abcFold.Inv where
  memoryRising := by decide
  memoryBound := by decide
  capacity := by decide
  phaseLegal := by decide
  errcodeLegal := by decide
  roundIndex := by decide
  runningJob := by decide
  finishedJob := by decide
  chunkBound := by decide
  quietJob := by decide

theorem witness_DecodeInvertsEncode :
    (Instr.rsvdSize 0b111#3 0#32 0#32).wellFormed = true ∧ (Instr.rsvdCmd4to7 0x4#4 true).wellFormed = true ∧
      (Instr.rsvdCmd4to7 0x7#4 true).wellFormed = true ∧ (Instr.rsvdCmd8to15 0x8#4 true).wellFormed = true ∧
      (Instr.rsvdCmd8to15 0xF#4 true).wellFormed = true ∧ (Instr.rsvdPhase 0b110#3).wellFormed = true ∧
      (Instr.rd8 0xFFFFFFFF#32).wellFormed = true := by decide

/-- A pending CTRL write, and a pending request that is none. -/
theorem witness_StepRunsThePendingRequest :
    (let s : State := { State.reset with inputs := [.request ⟨0b110#3, 0#32, 1#32⟩, .clock] }
     s.fault = none ∧ s.inputs = .request ⟨0b110#3, 0#32, 1#32⟩ :: [.clock]) ∧
    (let s : State := { State.reset with inputs := [.request ⟨0b010#3, 4#32, 0#32⟩] }
     s.fault = none ∧ s.inputs = .request ⟨0b010#3, 4#32, 0#32⟩ :: []) := by decide

theorem witness_CoreStepRunsTheMicroOpOfPhase :
    (abcStarted.fault = none ∧ abcStarted.inputs = []) ∧
      (let s : State := { abcStarted with inputs := [.clock, .reset] }
       s.fault = none ∧ s.inputs = .clock :: [.reset]) := by decide

/-- A marked state, a state whose step faults, and one whose step goes on. -/
theorem witness_FaultMarkIsStickyAndQuiescent :
    ({ State.reset with fault := some .reservedPhase } : State).fault = some .reservedPhase ∧
      step (inPhase 7#3) = .fault .reservedPhase ∧ ∃ t, step State.reset = .next t :=
  ⟨rfl, rfl, _, rfl⟩

theorem witness_ResetEventSetsTheListedValues :
    let s : State := { abcFold with inputs := [.reset, .clock] }
    s.fault = none ∧ s.inputs = .reset :: [.clock] := by decide

/-- After a job, and in the middle of one. -/
theorem witness_EveryStepKeepsTheInvariant :
    (abcDigest.Inv ∧ ∃ t, step abcDigest = .next t) ∧ abcFold.Inv ∧ ∃ t, step abcFold = .next t :=
  ⟨⟨abcDigest_inv, _, rfl⟩, abcFold_inv, _, rfl⟩

/-- A step by each of the three events. -/
theorem witness_PhaseMovesOnlyAsTheSequencerAllows :
    (abcFold.nextEvent = .clock ∧ ∃ t, step abcFold = .next t) ∧
    (let s : State := { State.reset with inputs := [.request ⟨0b110#3, 0#32, 1#32⟩] }
     requestInstr ⟨0b110#3, 0#32, 1#32⟩ = .start false ∧ s.busy = false ∧ ∃ t, step s = .next t) ∧
    (let s : State := { abcRound with inputs := [.request ⟨0b110#3, 0#32, 2#32⟩] }
     requestInstr ⟨0b110#3, 0#32, 2#32⟩ = .clear false ∧ ∃ t, step s = .next t) ∧
    (let s : State := { abcRound with inputs := [.reset] }
     s.nextEvent = .reset ∧ ∃ t, step s = .next t) :=
  ⟨⟨rfl, _, rfl⟩, ⟨by decide, by decide, _, rfl⟩, ⟨by decide, _, rfl⟩, rfl, _, rfl⟩

/-- The least and the greatest amount. -/
theorem witness_RotateAndShiftMoveBits : (1 ≤ 1 ∧ 1 ≤ 31) ∧ (1 ≤ 31 ∧ 31 ≤ 31) := by decide

/-- Bits where the shift terms run out. -/
theorem witness_RoundLogicActsBitwise : 21 < 32 ∧ 22 < 32 ∧ 28 < 32 ∧ 29 < 32 ∧ 31 < 32 := by decide

theorem witness_BitCodecAndPackerPlaceBitsMsbFirst :
    (toBits abc).length % 8 = 0 ∧ (toBits [0x61#8, 0x62#8, 0x63#8, 0x80#8]).length % 32 = 0 ∧ 2 < abc.length := by
  decide

/-- The empty message, and the longest that fits one chunk. -/
theorem witness_PaddingFillsWholeChunks :
    8 * ([] : List Byte).length < 2 ^ 64 ∧ 8 * (List.replicate 55 0x61#8).length < 2 ^ 64 := by decide

/-- "abc": the first byte, the last message byte, the byte 0x80 and the last length byte. -/
theorem witness_PaddedByteIsByteOfPad :
    abc.length < 2 ^ 61 ∧ (∀ k, k < abc.length → abcStarted.msgCell k = abc[k]?) ∧
      0 < 64 * chunkCount abc.length ∧ 2 < 64 * chunkCount abc.length ∧ 3 < 64 * chunkCount abc.length ∧
      63 < 64 * chunkCount abc.length := by decide

theorem witness_ChunkWordIsWordOfPackedPad :
    abc.length < 2 ^ 61 ∧ (∀ k, k < abc.length → abcStarted.msgCell k = abc[k]?) ∧
      0 < chunkCount abc.length ∧ 0 < 16 ∧ 15 < 16 := by decide

theorem witness_ScheduleFollowsTheRecurrence :
    (List.replicate 16 0#32).length = 16 ∧ 15 < 16 ∧ (16 ≤ 16 ∧ 16 ≤ 63) ∧ (16 ≤ 63 ∧ 63 ≤ 63) := by decide

theorem witness_RoundUpdatesTheWorkingVariables :
    maj 0xFFFFFFFF#32 0xFFFFFFFF#32 0#32 = 0xFFFFFFFF#32 ∧ bigSigma0 0xFFFFFFFF#32 = 0xFFFFFFFF#32 := by decide

theorem witness_SixtyFourRoundsExpandAndCompress :
    abcRound.fault = none ∧ abcRound.inputs = [] ∧ abcRound.phase = phaseRound ∧ abcRound.t = 0#6 := by decide

/-- The words of the chunk of "abc" (V-PAD-2). -/
def abcWords : List Word := [0x61626380#32] ++ List.replicate 14 0#32 ++ [0x00000018#32]

theorem witness_ChunkStepsCompress :
    abcStarted.fault = none ∧ abcStarted.inputs = [] ∧ abcStarted.phase = phaseLoad ∧ abcWords.length = 16 ∧
      ∀ j, j < 16 →
        chunkWord abcStarted.msgCell abcStarted.len abcStarted.nblk.toNat abcStarted.blkcnt.toNat j = abcWords[j]? := by
  decide

/-- The state of the job "abc" before its START, in each of the three phases that take one. -/
def abcReady (p : BitVec 3) : State := { inPhase p with lenLo := 3#32, msg := abcStarted.msg }

theorem abcReady_holds (p : BitVec 3) : (abcReady p).HoldsMessage abc := by
  change ∀ k, k < abc.length → (abcReady 0#3).msgCell k = abc[k]?
  decide

theorem witness_JobComputesSum :
    ∀ p : BitVec 3, p = phaseIdle ∨ p = phaseDone ∨ p = phaseError →
      (abcReady p).fault = none ∧ (abcReady p).inputs = [] ∧
      ((abcReady p).phase = phaseIdle ∨ (abcReady p).phase = phaseDone ∨ (abcReady p).phase = phaseError) ∧
      (abcReady p).CapacityLegal ∧ (abcReady p).len = abc.length ∧ abc.length ≤ (abcReady p).msgBytes.toNat ∧
      (abcReady p).HoldsMessage abc :=
  fun p h => ⟨rfl, rfl, h, by change State.reset.CapacityLegal; decide,
    by simp [State.len, abcReady, inPhase, State.reset, abc],
    by change abc.length ≤ State.reset.msgBytes.toNat; decide, abcReady_holds p⟩

theorem abcStarted_job : abcStarted.JobStarted abc where
  unfaulted := rfl
  loading := rfl
  firstChunk := rfl
  firstRound := rfl
  seeded := rfl
  chunks := by decide
  length := rfl
  capacity := by decide
  fits := by decide
  message := by change ∀ k, k < abc.length → abcStarted.msgCell k = abc[k]?; decide

/-- A NOP, a refused reserved command and a refused START between the core steps of the job "abc". -/
def nopAmongClocks : List Event :=
  [.request ⟨0b110#3, 0#32, 0x100#32⟩, .request ⟨0b110#3, 0#32, 3#32⟩, .request ⟨0b110#3, 0#32, 1#32⟩] ++
    List.replicate 65 .clock

theorem nopAmongClocks_undisturbing : ∀ e ∈ nopAmongClocks, abcStarted.Undisturbing e := by
  have h1 : abcStarted.Undisturbing (.request ⟨0b110#3, 0#32, 0x100#32⟩) :=
    ⟨fun ie h => absurd h (by cases ie <;> decide), fun f h => nomatch h⟩
  have h2 : abcStarted.Undisturbing (.request ⟨0b110#3, 0#32, 3#32⟩) :=
    ⟨fun ie h => absurd h (by cases ie <;> decide), fun f h => nomatch h⟩
  have h3 : abcStarted.Undisturbing (.request ⟨0b110#3, 0#32, 1#32⟩) :=
    ⟨fun ie h => absurd h (by cases ie <;> decide), fun f h => nomatch h⟩
  intro e he
  simp only [nopAmongClocks, List.cons_append, List.nil_append, List.mem_cons, List.mem_replicate] at he
  rcases he with rfl | rfl | rfl | ⟨-, rfl⟩
  · exact h1
  · exact h2
  · exact h3
  · trivial

theorem witness_InterleavedJobComputesSum :
    abcStarted.JobStarted abc ∧ (∀ e ∈ nopAmongClocks, abcStarted.Undisturbing e) ∧
      nopAmongClocks.count .clock + 1 = 66 * chunkCount abc.length :=
  ⟨abcStarted_job, nopAmongClocks_undisturbing, by decide⟩

/-- The first step, the last round, the step after it and the last one. -/
theorem witness_JobProgressAfterEachStep :
    abcStarted.JobStarted abc ∧ abcStarted.inputs = [] ∧ (1 ≤ 1 ∧ 1 ≤ 66 * chunkCount abc.length) ∧
      (1 ≤ 64 ∧ 64 ≤ 66 * chunkCount abc.length) ∧ (1 ≤ 65 ∧ 65 ≤ 66 * chunkCount abc.length) ∧
      (1 ≤ 66 ∧ 66 ≤ 66 * chunkCount abc.length) :=
  ⟨abcStarted_job, by decide, by decide, by decide, by decide, by decide⟩

/-- A fresh state and one with an earlier job's digest. -/
theorem witness_StartForgetsEarlierJobs :
    State.reset.busy = false ∧ abcDigest.busy = false ∧ State.reset.lenHi = abcDigest.lenHi ∧
      State.reset.lenLo = abcDigest.lenLo ∧ State.reset.msg = abcDigest.msg ∧
      State.reset.msgBytes = abcDigest.msgBytes ∧ State.reset.fault = abcDigest.fault ∧
      State.reset.inputs = abcDigest.inputs ∧ State.reset ≠ abcDigest := by decide

/-- Resting states, and a step that leaves one. -/
theorem witness_RestingPhasesHold :
    (∀ p : BitVec 3, p = phaseIdle ∨ p = phaseDone ∨ p = phaseError →
      (inPhase p).fault = none ∧ (inPhase p).inputs = [] ∧ (inPhase p).phase = p) ∧
    (let s : State := { State.reset with inputs := [.request ⟨0b110#3, 0#32, 1#32⟩] }
     s.phase = phaseIdle ∧ ∃ t, step s = .next t ∧ t.phase ≠ s.phase) :=
  ⟨fun _ _ => ⟨rfl, rfl, rfl⟩, rfl, _, rfl, by decide⟩

/-- A chunk whose message bytes are all written, with L inside the chunk, and one with its last message byte unwritten. -/
theorem witness_LoadReadsTheChunk :
    (∀ k, 64 * abcStarted.blkcnt.toNat ≤ k → k < min abcStarted.len (64 * abcStarted.blkcnt.toNat + 64) →
      abcStarted.msgCell k ≠ none) ∧
    (let s : State := { abcStarted with msg := [(0, 0x61#8), (1, 0x62#8)] }
     ∃ k, 64 * s.blkcnt.toNat ≤ k ∧ k < min s.len (64 * s.blkcnt.toNat + 64) ∧ s.msgCell k = none) := by
  refine ⟨fun k _ hk => ?_, 2, by decide, by decide, by decide⟩
  have h : ∀ k, k < 3 → abcStarted.msgCell k ≠ none := by decide
  exact h k (by have : k < min 3 64 := hk; omega)

set_option maxRecDepth 4000 in
/-- A memory that differs at L only. -/
theorem witness_CellsPastTheLengthDoNotReachLoad :
    let m : Memory := abcStarted.msg ++ [(3, 0xFF#8)]
    (∀ k, k < abcStarted.len → ({ abcStarted with msg := m } : State).msgCell k = abcStarted.msgCell k) ∧
      ∃ t, exec .load abcStarted = .next t :=
  ⟨by decide, next_exists (by decide)⟩

/-- Rounds at both sides of the boundary 16, and the last round. -/
theorem witness_RoundStepExpandsAndCompresses :
    ({ abcRound with t := 15#6 } : State).t.toNat < 16 ∧ 16 ≤ ({ abcRound with t := 16#6 } : State).t.toNat ∧
      16 ≤ ({ abcRound with t := 63#6 } : State).t.toNat := by decide

theorem witness_ReservedPhaseFaultsAndIsNeverWritten :
    ((inPhase 6#3).fault = none ∧ (inPhase 6#3).nextEvent = .clock ∧ 6 ≤ (inPhase 6#3).phase.toNat) ∧
      ((inPhase 5#3).phase.toNat ≤ 5 ∧ ∃ t, step (inPhase 5#3) = .next t) :=
  ⟨by decide, by decide, _, rfl⟩

/-- Refused accesses: the first unmapped address after REG by each of the four transactions, and a 2-byte write. -/
theorem witness_CheckAnswersTheFirstFailingTest :
    checkResp .read 0#2 0x1C#32 0#32 State.reset ≠ .okay ∧ checkResp .read 2#2 0x1C#32 0#32 State.reset ≠ .okay ∧
      checkResp .write 0#2 0x1C#32 0#32 State.reset ≠ .okay ∧
      checkResp .write 2#2 0x1C#32 0#32 State.reset ≠ .okay ∧ (0b101#3 : BitVec 3).getLsbD 0 = true := by decide

theorem witness_ReservedSizesAreRefused :
    (0b001#3 : BitVec 3).getLsbD 0 = true ∧ (0b111#3 : BitVec 3).getLsbD 0 = true := by decide

theorem witness_MsgszReturnsTheCapacity : ∃ t, step abcFold = .next t := ⟨_, rfl⟩

theorem witness_TextWindowsShowTheCharacters : 63 < 64 ∧ 15 < 16 ∧ 255 < 256 ∧ 63 < 64 := by decide

theorem witness_ReadsChangeNothing :
    (∃ t, exec (.rd8 0x13F#32) abcDigest = .next t) ∧ ∃ t, exec (.rd32 0x004#32) abcDigest = .next t :=
  ⟨⟨_, rfl⟩, _, rfl⟩

/-- "abc" and a fourth byte: a written cell, four written cells, the cell after them, and the last cell. -/
theorem witness_MessageReadsReturnWrittenCells :
    let s : State := { abcStarted with msg := abcStarted.msg ++ [(3, 0x00#8)] }
    s.msgBytes.toNat ≤ 2 ^ 31 ∧ s.msgCell 3 = some 0x00#8 ∧ (4 < s.msgBytes.toNat ∧ s.msgCell 4 = none) ∧
      (0 % 4 = 0 ∧ s.msgCell 0 = some 0x61#8 ∧ s.msgCell (0 + 1) = some 0x62#8 ∧ s.msgCell (0 + 2) = some 0x63#8 ∧
        s.msgCell (0 + 3) = some 0x00#8) ∧
      (4092 % 4 = 0 ∧ 4092 < s.msgBytes.toNat ∧ s.msgCell 4092 = none) := by decide

/-- The last byte and the last word of MSG. -/
theorem witness_MessageWritesSetTheirCells :
    State.reset.CapacityLegal ∧ State.reset.busy = false ∧ 4095 < State.reset.msgBytes.toNat ∧
      (4092 < State.reset.msgBytes.toNat ∧ 4092 % 4 = 0) := by decide

theorem witness_MixedWidthAccessesAgree :
    State.reset.CapacityLegal ∧ 0x80000000 ≤ (0x80000FFC#32 : Word).toNat ∧
      ∃ t, exec (.wr32 0x80000FFC#32 0x61626364#32) State.reset = .next t ∧ t.resp = some ⟨.okay, 0#32⟩ :=
  ⟨by decide, by decide, _, rfl, rfl⟩

/-- A step of each kind: no write, a 1-byte write, a 4-byte write, and a write below MSG_BASE. -/
theorem witness_OnlyMessageWritesTouchMessageCells :
    (∃ t, exec .fold abcFold = .next t) ∧
      (∃ t, exec (.wr8 0x80000FFF#32 1#32) State.reset = .next t) ∧
      (∃ t, exec (.wr32 0x80000FFC#32 1#32) State.reset = .next t) ∧
      (∃ t, exec (.wr32 0x00C#32 3#32) State.reset = .next t) ∧ (0x00C#32 : Word).toNat < msgBase :=
  ⟨⟨_, rfl⟩, ⟨_, rfl⟩, ⟨_, rfl⟩, ⟨_, rfl⟩, by decide⟩

theorem witness_LengthWritesStoreTheirHalf : abcDigest.busy = false := by decide

/-- START in a BUSY phase, and each of its branches at its boundary: L = 2^61, 2^61 - 1, MSG_BYTES + 1 and MSG_BYTES. -/
theorem witness_StartSeedsOrRejectsTheJob :
    abcFold.phase = 3#3 ∧ State.reset.phase = 0#3 ∧
      ({ State.reset with lenHi := 0x20000000#32 } : State).len = 2 ^ 61 ∧
      ({ State.reset with lenHi := 0x1FFFFFFF#32, lenLo := 0xFFFFFFFF#32 } : State).len = 2 ^ 61 - 1 ∧
      State.reset.msgBytes.toNat < ({ State.reset with lenLo := 4097#32 } : State).len ∧
      ({ State.reset with lenLo := 4096#32 } : State).len = State.reset.msgBytes.toNat := by decide

theorem witness_AcceptedStartCountsTheChunks :
    let s : State := { State.reset with lenLo := 0x80000000#32, msgBytes := 0x80000000#32 }
    s.busy = false ∧ s.CapacityLegal ∧ s.len ≤ s.msgBytes.toNat := by decide

theorem witness_ReservedCommandsAreRefused :
    (4 ≤ (4#4).toNat ∧ (4#4).toNat ≤ 7) ∧ (4 ≤ (7#4).toNat ∧ (7#4).toNat ≤ 7) ∧ 8 ≤ (8#4).toNat ∧ 8 ≤ (15#4).toNat ∧
      3 ≤ (0x00000003#32).toNat % 16 ∧ 3 ≤ (0xFFFFFFFF#32).toNat % 16 := by decide

/-- An accepted CTRL write, a refused one, and a reset. -/
theorem witness_AcceptedCtrlWritesSetInterruptEnable :
    (∃ t, exec (.wr32 0x000#32 0x102#32) abcFold = .next t) ∧ (∃ t, exec (.wr32 0x000#32 0x101#32) abcFold = .next t) ∧
      (let s : State := { abcFold with inputs := [.reset] }
       s.fault = none ∧ s.nextEvent = .reset) :=
  ⟨⟨_, rfl⟩, ⟨_, rfl⟩, by decide⟩

theorem witness_StateElementsHaveOnlyTheirWriters :
    (∃ t, exec .round abcRound = .next t) ∧ ∃ t, exec (.wr32 0x000#32 1#32) State.reset = .next t :=
  ⟨⟨_, rfl⟩, _, rfl⟩

/-- A NOP, and a refused message write, while BUSY. -/
theorem witness_BusyJobIsUndisturbedByTheHost :
    abcRound.busy = true ∧
      ((∀ ie, requestInstr ⟨0b110#3, 0#32, 0x100#32⟩ ≠ .clear ie) ∧
        ∃ t, exec (requestInstr ⟨0b110#3, 0#32, 0x100#32⟩) abcRound = .next t) ∧
      ((∀ ie, requestInstr ⟨0b100#3, 0x80000000#32, 1#32⟩ ≠ .clear ie) ∧
        ∃ t, exec (requestInstr ⟨0b100#3, 0x80000000#32, 1#32⟩) abcRound = .next t) :=
  ⟨by decide, ⟨by decide, _, rfl⟩, by decide, _, rfl⟩

end Sys2Proof.Tests
end

section
/-! The bit rules of the word operators rotr and shr (spec/00_scope.md R12, R13), and the obligation that states them. -/

namespace Sys2Proof.Machine

/-- Below bit 32 - n only the right-shifted half of the rotation holds a bit, from there on only the left-shifted half
(R12). -/
theorem getLsbD_rotr (x : Word) {n i : Nat} (hn : n ≤ 32) (hi : i < 32) :
    (rotr x n).getLsbD i = x.getLsbD ((i + n) % 32) := by
  rw [rotr, BitVec.getLsbD_or, BitVec.getLsbD_ushiftRight, BitVec.getLsbD_shiftLeft]
  by_cases hlow : i < 32 - n
  · have hmod : (i + n) % 32 = n + i := by omega
    simp [hlow, hmod]
  · have hmod : (i + n) % 32 = i - (32 - n) := by omega
    have hout : x.getLsbD (n + i) = false := BitVec.getLsbD_of_ge x (n + i) (by omega)
    simp [hlow, hmod, hout, hi]

@[simp] theorem getLsbD_shr (x : Word) (n i : Nat) : (shr x n).getLsbD i = x.getLsbD (i + n) := by
  rw [shr, BitVec.getLsbD_ushiftRight, Nat.add_comm]

@[simp] theorem toNat_shr (x : Word) (n : Nat) : (shr x n).toNat = x.toNat / 2 ^ n := by
  rw [shr, BitVec.toNat_ushiftRight, Nat.shiftRight_eq_div_pow]

/-- Settles O14: the bit rules of rotr and shr, and the shift as a division. -/
theorem rotateAndShiftMoveBits : Obligations.RotateAndShiftMoveBits := by
  intro x n _ hn
  refine ⟨fun i hi => getLsbD_rotr x (by omega) hi, fun i _ => ?_, toNat_shr x n⟩
  rw [getLsbD_shr]
  split
  · rfl
  · exact BitVec.getLsbD_of_ge x (i + n) (by omega)

end Sys2Proof.Machine
end

section
/-! What an instruction can do to the state, said once for all 18 of them: the relation `Effect`, the inversion of `exec` that
gives it, and the frames that follow from it alone. -/

namespace Sys2Proof.Machine

/-! ### The shared operations: START, a CTRL write, a register read -/

/-- Every branch of START copies its IE operand (spec/46_host_interface.md R321). -/
@[simp] theorem State.start_ie (s : State) (ie : Bool) : (s.start ie).ie = ie := by
  rcases start_cases s ie with ⟨-, h⟩ | ⟨-, -, h⟩ | ⟨-, -, h⟩ <;> rw [h] <;> rfl

/-- A START while not BUSY answers OKAY, whether the job is accepted or enters ERROR (spec/46_host_interface.md R321). -/
theorem execStart_of_not_busy {s : State} (ie : Bool) (hb : s.busy = false) :
    execStart ie s = .next ((s.start ie).respond .okay 0#32) := by
  rw [execStart_eq, hb]
  rfl

/-- The command decode by the value of CMD (spec/30_encoding.md R123). -/
theorem decodeCommand_cases (wdata : Word) :
    (cmdField wdata = 0#4 ∧ decodeCommand wdata = .nop (ieField wdata)) ∨
      (cmdField wdata = 1#4 ∧ decodeCommand wdata = .start (ieField wdata)) ∨
      (cmdField wdata = 2#4 ∧ decodeCommand wdata = .clear (ieField wdata)) ∨
      (3 ≤ (cmdField wdata).toNat ∧
        (decodeCommand wdata = .rsvdCmd3 (ieField wdata) ∨
          decodeCommand wdata = .rsvdCmd4to7 (cmdField wdata) (ieField wdata) ∨
          decodeCommand wdata = .rsvdCmd8to15 (cmdField wdata) (ieField wdata))) := by
  unfold decodeCommand
  generalize cmdField wdata = cmd
  generalize ieField wdata = ie
  revert cmd ie
  decide

/-- A command is none of the micro-operations. -/
theorem decodeCommand_interface (wdata : Word) : (decodeCommand wdata).interface = .ctrlCmd := by
  rcases decodeCommand_cases wdata with ⟨-, h⟩ | ⟨-, h⟩ | ⟨-, h⟩ | ⟨-, h | h | h⟩ <;> rw [h] <;> rfl

/-- Check of a WR32 to CTRL comes down to tests 5c and 5d (R314). -/
theorem check_ctrl_refused {wdata : Word} {s : State} {r : Resp}
    (h : commandRefusal (cmdField wdata) s.busy = some r) : check .write 2#2 ctrlAddr wdata s = .error r := by
  simp [check, regionOf, regAt, ctrlAddr, Region.isReg, writeRefusal, h]

theorem check_ctrl_accepted {wdata : Word} {s : State} (h : commandRefusal (cmdField wdata) s.busy = none) :
    check .write 2#2 ctrlAddr wdata s = .ok (.reg .ctrl) := by
  simp [check, regionOf, regAt, ctrlAddr, Region.isReg, writeRefusal, h]

/-- A WR32 to CTRL, by the value of CMD (R316, R320 to R323). -/
theorem execWr32_ctrl_cases (wdata : Word) (s : State) :
    (cmdField wdata = 0#4 ∧
        execWr32 ctrlAddr wdata s = .next ((s.withIe (ieField wdata)).respond .okay 0#32)) ∨
      (cmdField wdata = 1#4 ∧ s.busy = true ∧ execWr32 ctrlAddr wdata s = .next (s.respond .errBusy 0#32)) ∨
      (cmdField wdata = 1#4 ∧ s.busy = false ∧
        execWr32 ctrlAddr wdata s = .next ((s.start (ieField wdata)).respond .okay 0#32)) ∨
      (cmdField wdata = 2#4 ∧
        execWr32 ctrlAddr wdata s = .next ((s.clear (ieField wdata)).respond .okay 0#32)) ∨
      (3 ≤ (cmdField wdata).toNat ∧ execWr32 ctrlAddr wdata s = .next (s.respond .errCmd 0#32)) := by
  rcases decodeCommand_cases wdata with ⟨hc, hd⟩ | ⟨hc, hd⟩ | ⟨hc, hd⟩ | ⟨hc, -⟩
  · have hok := check_ctrl_accepted (wdata := wdata) (s := s) (by rw [hc, commandRefusal_nop])
    exact .inl ⟨hc, by simp only [execWr32, hok, ctrlDispatch, hd, execNop_eq]⟩
  · cases hb : s.busy with
    | true =>
      have hbad := check_ctrl_refused (wdata := wdata) (s := s) (r := .errBusy) (by rw [hc, hb, commandRefusal_start]; rfl)
      exact .inr (.inl ⟨hc, rfl, by simp only [execWr32, hbad]⟩)
    | false =>
      have hok := check_ctrl_accepted (wdata := wdata) (s := s) (by rw [hc, hb, commandRefusal_start]; rfl)
      exact .inr (.inr (.inl ⟨hc, rfl, by simp only [execWr32, hok, ctrlDispatch, hd, execStart_of_not_busy _ hb]⟩))
  · have hok := check_ctrl_accepted (wdata := wdata) (s := s) (by rw [hc, commandRefusal_clear])
    exact .inr (.inr (.inr (.inl ⟨hc, by simp only [execWr32, hok, ctrlDispatch, hd, execClear_eq]⟩)))
  · have hbad := check_ctrl_refused (s := s) (commandRefusal_reserved s.busy hc)
    exact .inr (.inr (.inr (.inr ⟨hc, by simp only [execWr32, hbad]⟩)))

/-- RD32 of a register answers its value (R310, R315). -/
theorem execRd32_reg {addr : Word} {r : Reg} (s : State) (hr : regAt addr.toNat = some r) (h4 : addr.toNat % 4 = 0) :
    execRd32 addr s = .next (s.respond .okay (regValue s r)) := by
  have hcheck : check .read 2#2 addr 0#32 s = .ok (.reg r) := by
    simp [check, h4, regionOf_reg.mpr hr]
  simp only [execRd32, hcheck]

/-! ### The operation an instruction performs -/

theorem performed_wr32_ctrl (wdata : Word) : (Instr.wr32 ctrlAddr wdata).performed = decodeCommand wdata := by
  simp [Instr.performed]

theorem performed_wr32_of_ne {addr : Word} (h : addr ≠ ctrlAddr) (wdata : Word) :
    (Instr.wr32 addr wdata).performed = .wr32 addr wdata := by
  simp [Instr.performed, h]

/-- Performing the command of a CTRL write turns no host operation into a core step, and no core step into another
operation. -/
theorem performed_interface_phase (i : Instr) : i.performed.interface = .phase ↔ i.interface = .phase := by
  cases i with
  | wr32 addr wdata =>
    by_cases h : addr = ctrlAddr
    · subst h
      rw [performed_wr32_ctrl, decodeCommand_interface]
      simp [Instr.interface]
    · rw [performed_wr32_of_ne h]
  | _ => rfl

theorem performed_of_phase {i : Instr} (h : i.interface = .phase) : i.performed = i := by
  cases i with
  | wr32 addr wdata => cases h
  | _ => rfl

/-! ### The effect of an instruction -/

/-- `Effect s p t`: performing the operation `p` in `s` can answer the next state `t`. One constructor per kind of write; a
transaction that only answers (a read, or any refusal) is `respond`. -/
inductive Effect (s : State) : Instr → State → Prop where
  | respond {p : Instr} (hp : p.interface ≠ .phase) (r : Resp) (v : Word) : Effect s p (s.respond r v)
  | nop (ie : Bool) : Effect s (.nop ie) ((s.withIe ie).respond .okay 0#32)
  | reject (ie : Bool) {code : BitVec 4} (hcode : code = 1#4 ∨ code = 2#4) :
      Effect s (.start ie) ((s.enterError ie code).respond .okay 0#32)
  | accept (ie : Bool) (hfits : s.len ≤ s.msgBytes.toNat) :
      Effect s (.start ie) ((s.seedJob ie (BitVec.ofNat 32 (chunkCount s.len))).respond .okay 0#32)
  | clear (ie : Bool) : Effect s (.clear ie) ((s.clear ie).respond .okay 0#32)
  | lenHi (v : Word) (hb : s.busy = false) : Effect s (.wr32 0x008#32 v) ((s.withLenHi v).respond .okay 0#32)
  | lenLo (v : Word) (hb : s.busy = false) : Effect s (.wr32 0x00C#32 v) ((s.withLenLo v).respond .okay 0#32)
  | storeByte (addr v : Word) (hk : addr.toNat - msgBase < s.msgBytes.toNat) :
      Effect s (.wr8 addr v) ((s.storeByte (addr.toNat - msgBase) (writeByte v)).respond .okay 0#32)
  | storeWord (addr v : Word) (h4 : addr.toNat % 4 = 0) (hk : addr.toNat - msgBase < s.msgBytes.toNat) :
      Effect s (.wr32 addr v) ((s.storeWord (addr.toNat - msgBase) v).respond .okay 0#32)
  | rest {p : Instr} (hp : p = .idle ∨ p = .done ∨ p = .error) : Effect s p s
  | load (w : Vector Word 64) : Effect s .load (s.loaded w)
  | round : Effect s .round s.rounded
  | fold : Effect s .fold s.folded

/-- A host transaction may only answer. -/
theorem Effect.answer {s : State} {i : Instr} (hi : i.interface ≠ .phase) (r : Resp) (v : Word) :
    Effect s i.performed (s.respond r v) :=
  .respond (mt (performed_interface_phase i).mp hi) r v

/-- R321's writes are the effect of a rejected or of an accepted START. -/
theorem start_effect (s : State) (ie : Bool) : Effect s (.start ie) ((s.start ie).respond .okay 0#32) := by
  rcases start_cases s ie with ⟨-, h⟩ | ⟨-, -, h⟩ | ⟨-, hfits, h⟩
  · rw [h]; exact .reject ie (.inl rfl)
  · rw [h]; exact .reject ie (.inr rfl)
  · rw [h]; exact .accept ie hfits

/-- A START has the effect of a refusal, or of R321's writes. -/
theorem execStart_effect {ie : Bool} {s t : State} (h : execStart ie s = .next t) : Effect s (.start ie) t := by
  cases hb : s.busy with
  | true =>
    rw [execStart_eq, hb] at h
    cases h
    exact .respond (by simp [Instr.interface]) _ _
  | false =>
    cases (execStart_of_not_busy ie hb).symm.trans h
    exact start_effect s ie

/-- A CTRL write has the effect of its command. -/
theorem ctrlDispatch_effect {wdata : Word} {s t : State} (h : ctrlDispatch wdata s = .next t) :
    Effect s (decodeCommand wdata) t := by
  rcases ctrlDispatch_next h with ⟨r, rfl⟩ | ⟨ie, hd, rfl⟩ | ⟨ie, hd, -, rfl⟩ | ⟨ie, hd, rfl⟩
  · exact .respond (by rw [decodeCommand_interface]; decide) _ _
  · rw [hd]; exact .nop ie
  · rw [hd]; exact start_effect s ie
  · rw [hd]; exact .clear ie

/-- A 4-byte write has the effect of a refusal, of a command, or of a write to LEN or MSG. -/
theorem execWr32_effect {addr wdata : Word} {s t : State} (h : execWr32 addr wdata s = .next t) :
    Effect s (Instr.wr32 addr wdata).performed t := by
  rcases execWr32_next h with
    ⟨r, v, rfl⟩ | ⟨rfl, hctrl⟩ | ⟨rfl, hb, rfl⟩ | ⟨rfl, hb, rfl⟩ | ⟨-, hbase, h4, hk, rfl⟩
  · exact .answer (by simp [Instr.interface]) r v
  · rw [performed_wr32_ctrl]; exact ctrlDispatch_effect hctrl
  · exact .lenHi wdata hb
  · exact .lenLo wdata hb
  · have hne : addr ≠ ctrlAddr := by
      rintro rfl
      exact absurd hbase (by decide)
    rw [performed_wr32_of_ne hne]
    exact .storeWord addr wdata h4 hk

/-- Every next state that an instruction answers is an effect of the operation it performs. -/
theorem exec_effect {i : Instr} {s t : State} (h : exec i s = .next t) : Effect s i.performed t := by
  cases i with
  | rd8 addr => obtain ⟨r, v, rfl⟩ := execRd8_next h; exact .answer (by simp [Instr.interface]) r v
  | rd32 addr => obtain ⟨r, v, rfl⟩ := execRd32_next h; exact .answer (by simp [Instr.interface]) r v
  | wr8 addr wdata =>
    rcases execWr8_next h with ⟨r, v, rfl⟩ | ⟨-, -, hk, rfl⟩
    · exact .answer (by simp [Instr.interface]) r v
    · exact .storeByte addr wdata hk
  | wr32 addr wdata => exact execWr32_effect h
  | rsvdSize desc addr wdata => obtain ⟨r, v, rfl⟩ := execRsvdSize_next h; exact .answer (by simp [Instr.interface]) r v
  | nop ie => cases (execNop_eq ie s).symm.trans h; exact .nop ie
  | start ie => exact execStart_effect h
  | clear ie => cases (execClear_eq ie s).symm.trans h; exact .clear ie
  | rsvdCmd3 ie => cases h; exact .answer (by simp [Instr.interface]) _ _
  | rsvdCmd4to7 cmd ie => cases h; exact .answer (by simp [Instr.interface]) _ _
  | rsvdCmd8to15 cmd ie => cases h; exact .answer (by simp [Instr.interface]) _ _
  | idle => cases h; exact .rest (.inl rfl)
  | load =>
    rcases execLoad_cases s with ⟨w, -, hw⟩ | ⟨-, hw⟩
    · cases hw.symm.trans h; exact .load w
    · cases hw.symm.trans h
  | round => cases h; exact .round
  | fold => cases h; exact .fold
  | done => cases h; exact .rest (.inr (.inl rfl))
  | error => cases h; exact .rest (.inr (.inr rfl))
  | rsvdPhase code => cases h

/-! ### What no operation writes -/

/-- No operation writes the fault mark, the capacity or the pending events. -/
theorem Effect.frame {s t : State} {p : Instr} (h : Effect s p t) :
    t.fault = s.fault ∧ t.msgBytes = s.msgBytes ∧ t.inputs = s.inputs := by
  cases h <;> simp

/-- No event writes the fault mark or the capacity (spec/10_state.md R47, R48). -/
theorem step_frame {s t : State} (h : step s = .next t) : t.fault = s.fault ∧ t.msgBytes = s.msgBytes := by
  rcases step_cases (step_next_unfaulted h) with ⟨-, he⟩ | ⟨q, -, he⟩ | ⟨-, he⟩
  · obtain ⟨hf, hm, -⟩ := (exec_effect (he.symm.trans h)).frame
    exact ⟨hf, hm⟩
  · obtain ⟨hf, hm, -⟩ := (exec_effect (he.symm.trans h)).frame
    exact ⟨hf, hm⟩
  · cases he.symm.trans h
    exact ⟨rfl, rfl⟩

end Sys2Proof.Machine
end

section
/-! The invariant of spec/10_state.md: which states have it outright, and one lemma per update that keeps it. -/

namespace Sys2Proof.Machine

/-! ### BUSY and the chunk count -/

/-- BUSY is PHASE LOAD, ROUND or FOLD (R44). -/
theorem busy_iff {s : State} :
    s.busy = true ↔ s.phase = phaseLoad ∨ s.phase = phaseRound ∨ s.phase = phaseFold := by
  simp [State.busy, or_assoc]

/-- A message of at most 2^31 bytes has at most 2^25 + 1 chunks (spec/10_state.md R36). -/
theorem chunkCount_le {n : Nat} (h : n ≤ 2 ^ 31) : chunkCount n ≤ 2 ^ 25 + 1 := by
  unfold chunkCount
  omega

theorem chunkCount_pos (n : Nat) : 0 < chunkCount n := Nat.succ_pos _

/-- NBLK holds the chunk count of a message of at most 2^31 bytes without truncation (R36). -/
theorem toNat_ofNat_chunkCount {n : Nat} (h : n ≤ 2 ^ 31) :
    (BitVec.ofNat 32 (chunkCount n)).toNat = chunkCount n := by
  have hle := chunkCount_le h
  rw [BitVec.toNat_ofNat, Nat.mod_eq_of_lt (by omega)]

/-! ### The micro-operation of PHASE -/

theorem microOp_interface (s : State) : s.microOp.interface = .phase := by
  rcases microOp_cases s with ⟨-, h⟩ | ⟨-, h⟩ | ⟨-, h⟩ | ⟨-, h⟩ | ⟨-, h⟩ | ⟨-, h⟩ | ⟨-, h⟩ <;> rw [h] <;> rfl

/-- PHASE selects each micro-operation that writes the state by one code only (spec/30_encoding.md R125). -/
theorem phase_of_microOp (s : State) :
    (s.microOp = .load → s.phase = phaseLoad) ∧ (s.microOp = .round → s.phase = phaseRound) ∧
      (s.microOp = .fold → s.phase = phaseFold) := by
  rcases microOp_cases s with
    ⟨hp, h⟩ | ⟨hp, h⟩ | ⟨hp, h⟩ | ⟨hp, h⟩ | ⟨hp, h⟩ | ⟨hp, h⟩ | ⟨hp, h⟩ <;> simp [h, hp]

/-! ### Resting states -/

/-- The invariant of a state in IDLE or ERROR whose job state is zero. -/
theorem inv_of_zero_job {s : State} (hrising : s.msg.wf) (hbound : ∀ c ∈ s.msg, c.1 < s.msgBytes.toNat)
    (hcap : s.CapacityLegal)
    (hjob : s.h = Vector.replicate 8 0#32 ∧ s.vars = Vars.zero ∧ s.w = Vector.replicate 64 0#32 ∧
      s.blkcnt = 0#32 ∧ s.nblk = 0#32)
    (ht : s.t = 0#6)
    (hphase : (s.phase = phaseIdle ∧ s.errcode = 0#4) ∨
      (s.phase = phaseError ∧ (s.errcode = 1#4 ∨ s.errcode = 2#4))) : s.Inv := by
  obtain ⟨-, -, -, -, hnblk⟩ := id hjob
  refine ⟨hrising, hbound, hcap, ?_, ?_, ?_, ?_, ?_, by rw [hnblk]; decide, fun _ => hjob⟩
  all_goals rcases hphase with ⟨hp, he⟩ | ⟨hp, he⟩ <;> simp [hp, he, ht, busy_iff]

/-- The invariant holds in the state after reset. -/
theorem reset_inv : State.reset.Inv :=
  inv_of_zero_job State.reset_wf (fun _ hc => nomatch hc) (by decide) ⟨rfl, rfl, rfl, rfl, rfl⟩ rfl (.inl ⟨rfl, rfl⟩)

section
variable {s : State} (hs : s.Inv)
include hs

theorem State.Inv.resetEvent : s.resetEvent.Inv :=
  inv_of_zero_job s.resetEvent_wf (fun _ hc => nomatch hc) hs.capacity ⟨rfl, rfl, rfl, rfl, rfl⟩ rfl
    (.inl ⟨rfl, rfl⟩)

theorem State.Inv.clear (ie : Bool) : (s.clear ie).Inv :=
  inv_of_zero_job hs.memoryRising hs.memoryBound hs.capacity ⟨rfl, rfl, rfl, rfl, rfl⟩ rfl (.inl ⟨rfl, rfl⟩)

theorem State.Inv.enterError (ie : Bool) {code : BitVec 4} (hcode : code = 1#4 ∨ code = 2#4) :
    (s.enterError ie code).Inv :=
  inv_of_zero_job hs.memoryRising hs.memoryBound hs.capacity ⟨rfl, rfl, rfl, rfl, rfl⟩ rfl (.inr ⟨rfl, hcode⟩)

/-! ### Updates outside the job -/

/-- IE and the host's side of the bus are free. -/
theorem State.Inv.withHostSide (ie : Bool) (resp : Option Response) (inputs : List Event) :
    State.Inv { s with ie := ie, resp := resp, inputs := inputs } :=
  ⟨hs.memoryRising, hs.memoryBound, hs.capacity, hs.phaseLegal, hs.errcodeLegal, hs.roundIndex, hs.runningJob,
    hs.finishedJob, hs.chunkBound, hs.quietJob⟩

theorem State.Inv.pop : s.pop.Inv := hs.withHostSide s.ie s.resp s.inputs.tail

theorem State.Inv.respond (r : Resp) (v : Word) : (s.respond r v).Inv := hs.withHostSide s.ie (some ⟨r, v⟩) s.inputs

theorem State.Inv.withIe (ie : Bool) : (s.withIe ie).Inv := hs.withHostSide ie s.resp s.inputs

/-- LEN is free while no job runs. -/
theorem State.Inv.withLen (hb : s.busy = false) (hi lo : Word) : State.Inv { s with lenHi := hi, lenLo := lo } :=
  ⟨hs.memoryRising, hs.memoryBound, hs.capacity, hs.phaseLegal, hs.errcodeLegal, hs.roundIndex,
    fun hbusy => Bool.noConfusion (hb.symm.trans hbusy), hs.finishedJob, hs.chunkBound, hs.quietJob⟩

theorem State.Inv.withLenHi (hb : s.busy = false) (v : Word) : (s.withLenHi v).Inv := hs.withLen hb v s.lenLo

theorem State.Inv.withLenLo (hb : s.busy = false) (v : Word) : (s.withLenLo v).Inv := hs.withLen hb s.lenHi v

/-- The message memory is free as long as it stays canonical and inside the capacity. -/
theorem State.Inv.withMsg {m : Memory} (hrising : m.wf) (hbound : ∀ c ∈ m, c.1 < s.msgBytes.toNat) :
    State.Inv { s with msg := m } :=
  ⟨hrising, hbound, hs.capacity, hs.phaseLegal, hs.errcodeLegal, hs.roundIndex, hs.runningJob, hs.finishedJob,
    hs.chunkBound, hs.quietJob⟩

theorem State.Inv.storeByte {k : Nat} (hk : k < s.msgBytes.toNat) (v : Byte) : (s.storeByte k v).Inv :=
  hs.withMsg (State.storeByte_wf k v hs.memoryRising) (Memory.write_bound v hs.memoryBound hk)

/-- The four cells of an aligned word lie inside the capacity, a multiple of 4 (spec/00_scope.md R6). -/
theorem State.Inv.storeWord {k : Nat} (h4 : k % 4 = 0) (hk : k < s.msgBytes.toNat) (v : Word) :
    (s.storeWord k v).Inv := by
  obtain ⟨hcap4, -, -⟩ := hs.capacity
  refine hs.withMsg (State.storeWord_wf k v hs.memoryRising) ?_
  iterate 4 refine Memory.write_bound _ ?_ (by omega)
  exact hs.memoryBound

/-! ### The job: START and the micro-operations -/

/-- An accepted START begins chunk 0 of the message's chunks (spec/46_host_interface.md R321). -/
theorem State.Inv.seedJob (ie : Bool) (hfits : s.len ≤ s.msgBytes.toNat) :
    (s.seedJob ie (BitVec.ofNat 32 (chunkCount s.len))).Inv := by
  obtain ⟨-, -, hcap⟩ := hs.capacity
  have hn := toNat_ofNat_chunkCount (hfits.trans hcap)
  refine ⟨hs.memoryRising, hs.memoryBound, hs.capacity, ?_, ?_, ?_, fun _ => ⟨hfits, hn, ?_⟩, ?_, ?_, ?_⟩
  · simp
  · simp
  · simp
  · rw [State.seedJob_blkcnt, State.seedJob_nblk, hn]
    exact chunkCount_pos s.len
  · simp
  · rw [State.seedJob_nblk, hn]
    exact chunkCount_le (hfits.trans hcap)
  · simp

/-- LOAD stays inside the job and leaves t = 0 (spec/45_sequencer.md R282). -/
theorem State.Inv.loaded (hp : s.phase = phaseLoad) (w : Vector Word 64) : (s.loaded w).Inv := by
  have herr : s.errcode = 0#4 := by simpa [hp] using hs.errcodeLegal
  have hjob := hs.runningJob (busy_iff.mpr (.inl hp))
  refine ⟨hs.memoryRising, hs.memoryBound, hs.capacity, ?_, ?_, ?_, fun _ => hjob, ?_, hs.chunkBound, ?_⟩
  all_goals simp [herr]

/-- ROUND counts t up to 63 and then goes to FOLD (R283). -/
theorem State.Inv.rounded (hp : s.phase = phaseRound) : s.rounded.Inv := by
  have herr : s.errcode = 0#4 := by simpa [hp] using hs.errcodeLegal
  have hjob := hs.runningJob (busy_iff.mpr (.inr (.inl hp)))
  by_cases hmore : s.t.toNat < 63
  · refine ⟨hs.memoryRising, hs.memoryBound, hs.capacity, ?_, ?_, ?_, fun _ => hjob, ?_, hs.chunkBound, ?_⟩
    all_goals simp [hmore, hp, herr]
  · have hlast : s.t = 63#6 := by bv_omega
    refine ⟨hs.memoryRising, hs.memoryBound, hs.capacity, ?_, ?_, ?_, fun _ => hjob, ?_, hs.chunkBound, ?_⟩
    all_goals simp [hlast, herr]

/-- FOLD finishes chunk BLKCNT; after the last one BLKCNT is NBLK (R284). -/
theorem State.Inv.folded (hp : s.phase = phaseFold) : s.folded.Inv := by
  have herr : s.errcode = 0#4 := by simpa [hp] using hs.errcodeLegal
  obtain ⟨hlen, hn, hlt⟩ := hs.runningJob (busy_iff.mpr (.inr (.inr hp)))
  have hnext : (s.blkcnt + 1#32).toNat = s.blkcnt.toNat + 1 := by bv_omega
  by_cases hdone : s.blkcnt + 1#32 = s.nblk
  · have hpos : 1 ≤ s.nblk.toNat := by omega
    refine ⟨hs.memoryRising, hs.memoryBound, hs.capacity, ?_, ?_, ?_, ?_, fun _ => ⟨hdone, hpos⟩, hs.chunkBound, ?_⟩
    all_goals simp [hdone, herr, busy_iff]
  · have hmore : (s.blkcnt + 1#32).toNat < s.nblk.toNat := by
      have hne : (s.blkcnt + 1#32).toNat ≠ s.nblk.toNat := fun h => hdone (BitVec.eq_of_toNat_eq h)
      omega
    refine ⟨hs.memoryRising, hs.memoryBound, hs.capacity, ?_, ?_, ?_, fun _ => ⟨hlen, hn, hmore⟩, ?_, hs.chunkBound, ?_⟩
    all_goals simp [hdone, herr]

/-! ### Every step -/

/-- Every effect keeps the invariant; a micro-operation's effect does where PHASE selects it. -/
theorem Effect.keeps_inv {p : Instr} {t : State} (he : Effect s p t)
    (hphase : p.interface = .phase → p = s.microOp) : t.Inv := by
  cases he with
  | respond _ r v => exact hs.respond r v
  | nop ie => exact (hs.withIe ie).respond _ _
  | reject ie hcode => exact (hs.enterError ie hcode).respond _ _
  | accept ie hfits => exact (hs.seedJob ie hfits).respond _ _
  | clear ie => exact (hs.clear ie).respond _ _
  | lenHi v hb => exact (hs.withLenHi hb v).respond _ _
  | lenLo v hb => exact (hs.withLenLo hb v).respond _ _
  | storeByte addr v hk => exact (hs.storeByte hk _).respond _ _
  | storeWord addr v h4 hk => exact (hs.storeWord (by unfold msgBase; omega) hk v).respond _ _
  | rest _ => exact hs
  | load w => exact hs.loaded ((phase_of_microOp s).1 (hphase rfl).symm) w
  | round => exact hs.rounded ((phase_of_microOp s).2.1 (hphase rfl).symm)
  | fold => exact hs.folded ((phase_of_microOp s).2.2 (hphase rfl).symm)

end

/-- Settles O11: the reset state's memory is empty, its capacity is legal and its job state is zero. -/
theorem resetStateMeetsTheInvariant : Obligations.ResetStateMeetsTheInvariant := reset_inv

/-- Settles O12: by the kind of the event, and for an instruction by its effect. -/
theorem everyStepKeepsTheInvariant : Obligations.EveryStepKeepsTheInvariant := by
  intro s t hs h
  rcases step_cases (step_next_unfaulted h) with ⟨-, he⟩ | ⟨q, -, he⟩ | ⟨-, he⟩
  · have heff := exec_effect (he.symm.trans h)
    rw [performed_of_phase (microOp_interface s)] at heff
    exact Effect.keeps_inv hs.pop heff fun _ => rfl
  · refine Effect.keeps_inv hs.pop (exec_effect (he.symm.trans h)) fun hp => ?_
    exact absurd ((performed_interface_phase _).mp hp) (requestInstr_interface q)
  · cases he.symm.trans h
    exact hs.pop.resetEvent

end Sys2Proof.Machine
end

section
/-! The claims about the state's elements: their reset values, their writers, and the words that show them to the host. -/

namespace Sys2Proof.Machine

/-! ### Reset values and the fault mark -/

/-- Settles O10: each field as `State.reset` writes it, over the whole of H and W and an empty message memory. -/
theorem resetStateHoldsTheListedValues : Obligations.ResetStateHoldsTheListedValues := by
  refine ⟨fun i => ?_, rfl, fun i => ?_, rfl, rfl, rfl, rfl, rfl, rfl, rfl, rfl, fun k => ite_self _, rfl, rfl⟩
  · exact Vector.getElem_replicate i.isLt
  · exact Vector.getElem_replicate i.isLt

/-- A marked state answers its own fault to every event (spec/60_exceptions.md R357). -/
theorem step_of_fault {s : State} {r : Fault} (h : s.fault = some r) : step s = .fault r := by
  simp [step, h]

theorem settle_of_fault {s : State} {r : Fault} (h : step s = .fault r) : s.settle = s.raise r := by
  simp [State.settle, h]

theorem raise_of_fault {s : State} {r : Fault} (h : s.fault = some r) : s.raise r = s := by
  rw [State.raise, ← h]

/-- Settles O8: a marked state only repeats its fault, `settle` raises the mark, and no event of an unmarked state sets
one. -/
theorem faultMarkIsStickyAndQuiescent : Obligations.FaultMarkIsStickyAndQuiescent := by
  intro s r
  refine ⟨fun h => ⟨step_of_fault h, ?_⟩, settle_of_fault, fun t h => ?_⟩
  · rw [settle_of_fault (step_of_fault h), raise_of_fault h]
  · exact (step_frame h).1.trans (step_next_unfaulted h)

/-! ### The capacity and STATUS -/

/-- Settles O41: MSGSZ is the register at 0x18, and no event writes the capacity. -/
theorem msgszReturnsTheCapacity : Obligations.MsgszReturnsTheCapacity :=
  ⟨fun s => execRd32_reg (addr := 0x018#32) (r := .msgsz) s rfl rfl, fun _ _ h => (step_frame h).2⟩

/-- Every WR32 of a read-only register is refused by test 5a (spec/46_host_interface.md R314). -/
theorem execWr32_readonly_reg {addr : Word} {r : Reg} (s : State) (wdata : Word) (hr : regAt addr.toNat = some r)
    (h4 : addr.toNat % 4 = 0) (hro : r = .status ∨ r = .nblk ∨ r = .blkcnt ∨ r = .msgsz) :
    execWr32 addr wdata s = .next (s.respond .errReadonly 0#32) := by
  have hrefusal : writeRefusal (.reg r) wdata s.busy = some .errReadonly := by
    rcases hro with rfl | rfl | rfl | rfl <;> rfl
  have hcheck : check .write 2#2 addr wdata s = .error .errReadonly := by
    simp [check, h4, regionOf_reg.mpr hr, Region.isReg, hrefusal]
  simp only [execWr32, hcheck]

/-- The four flag bits of STATUS (spec/10_state.md R44). -/
theorem getLsbD_status (s : State) :
    s.status.getLsbD 0 = s.busy ∧ s.status.getLsbD 1 = s.isDone ∧ s.status.getLsbD 2 = s.isError ∧
      s.status.getLsbD 3 = s.irq := by
  simp only [State.status, BitVec.getLsbD_append]
  simp

/-- The multi-bit fields of STATUS and its reserved bits (R44). -/
theorem extractLsb'_status (s : State) :
    s.status.extractLsb' 4 3 = s.phase ∧ s.status.extractLsb' 7 1 = 0#1 ∧ s.status.extractLsb' 8 4 = s.errcode ∧
      s.status.extractLsb' 12 4 = 0#4 ∧ s.status.extractLsb' 16 6 = s.t ∧ s.status.extractLsb' 22 10 = 0#10 := by
  simp (disch := decide) only
    [State.status, BitVec.extractLsb'_append_eq_of_le, BitVec.extractLsb'_append_eq_of_add_le]
  simp

/-- Settles O40: the flags and fields of the STATUS word, and the refusal of a write to it. -/
theorem statusWordPlacesItsFields : Obligations.StatusWordPlacesItsFields := by
  intro s
  obtain ⟨hbusy, hdone, herr, hirq⟩ := getLsbD_status s
  obtain ⟨hphase, hres7, hcode, hres12, ht, hres22⟩ := extractLsb'_status s
  refine ⟨?_, ?_, ?_, ?_, hphase, hres7, hcode, hres12, ht, hres22, fun wdata => ?_⟩
  · rw [hbusy, busy_iff]
  · rw [hdone, State.isDone, beq_iff_eq]
  · rw [herr, State.isError, beq_iff_eq]
  · rw [hirq]
    simp [State.irq, State.isDone, State.isError]
  · exact execWr32_readonly_reg (addr := 0x004#32) (r := .status) s wdata rfl rfl (.inl rfl)

/-! ### START and IE -/

/-- An accepted START seeds the job (spec/46_host_interface.md R321). -/
theorem start_accepted {s : State} (ie : Bool) (hcap : s.msgBytes.toNat ≤ 2 ^ 31) (hfits : s.len ≤ s.msgBytes.toNat) :
    s.start ie = s.seedJob ie (BitVec.ofNat 32 (chunkCount s.len)) := by
  rcases start_cases s ie with ⟨hbig, -⟩ | ⟨-, hover, -⟩ | ⟨-, -, h⟩
  · omega
  · omega
  · exact h

/-- Settles O54: the accepted START writes the chunk count, which fits in 32 bits for a legal capacity. -/
theorem acceptedStartCountsTheChunks : Obligations.AcceptedStartCountsTheChunks := by
  rintro s ie hb ⟨-, -, hcap⟩ hfits
  have hlen := hfits.trans hcap
  have hn := toNat_ofNat_chunkCount hlen
  have he : exec (.start ie) s = .next ((s.seedJob ie (BitVec.ofNat 32 (chunkCount s.len))).respond .okay 0#32) :=
    (execStart_of_not_busy ie hb).trans (by rw [start_accepted ie hcap hfits])
  exact ⟨_, he, rfl, hn, hn.trans_le (chunkCount_le hlen), rfl, rfl, rfl, rfl⟩

/-- Settles O57: by the command for a CTRL write, and by R390's value for reset. -/
theorem acceptedCtrlWritesSetInterruptEnable : Obligations.AcceptedCtrlWritesSetInterruptEnable := by
  refine ⟨fun s t wdata h => ?_, fun s hf hr => ⟨_, by rw [step, hf, hr], rfl⟩⟩
  rcases execWr32_ctrl_cases wdata s with ⟨-, he⟩ | ⟨-, -, he⟩ | ⟨-, -, he⟩ | ⟨-, he⟩ | ⟨-, he⟩
  · cases he.symm.trans h; exact ⟨.okay, rfl, rfl⟩
  · cases he.symm.trans h; exact ⟨.errBusy, rfl, rfl⟩
  · cases he.symm.trans h; exact ⟨.okay, rfl, by rw [if_pos rfl, State.respond_ie, State.start_ie, ieField]⟩
  · cases he.symm.trans h; exact ⟨.okay, rfl, rfl⟩
  · cases he.symm.trans h; exact ⟨.errCmd, rfl, rfl⟩

/-! ### Writers -/

section
variable {s t : State} {p : Instr} (he : Effect s p t)
include he

/-- The writers of the job's registers: START, CLEAR and the micro-operations (the table of spec/10_state.md R30). -/
theorem Effect.job_writers :
    let start := ∃ ie, p = .start ie
    let clear := ∃ ie, p = .clear ie
    (t.h = s.h ∨ start ∨ clear ∨ p = .fold) ∧
      (t.vars = s.vars ∨ start ∨ clear ∨ p = .load ∨ p = .round) ∧
      (t.w = s.w ∨ start ∨ clear ∨ p = .load ∨ p = .round) ∧
      (t.t = s.t ∨ start ∨ clear ∨ p = .load ∨ p = .round ∨ p = .fold) ∧
      (t.phase = s.phase ∨ start ∨ clear ∨ p = .load ∨ p = .round ∨ p = .fold) ∧
      (t.blkcnt = s.blkcnt ∨ start ∨ clear ∨ p = .fold) ∧
      (t.nblk = s.nblk ∨ start ∨ clear) ∧
      (t.errcode = s.errcode ∨ start ∨ clear) := by
  cases he <;> simp

/-- The writers of IE, LEN and MSG (R39, R43, R86). -/
theorem Effect.host_writers :
    (t.ie = s.ie ∨ (∃ ie, p = .start ie) ∨ (∃ ie, p = .clear ie) ∨ ∃ ie, p = .nop ie) ∧
      (t.lenHi = s.lenHi ∨ ∃ wdata, p = .wr32 0x008#32 wdata) ∧
      (t.lenLo = s.lenLo ∨ ∃ wdata, p = .wr32 0x00C#32 wdata) ∧
      (t.msg = s.msg ∨ ∃ addr wdata, p = .wr8 addr wdata ∨ p = .wr32 addr wdata) := by
  cases he <;> simp

/-- A core step leaves the response port alone (log entry 3). -/
theorem Effect.resp_eq (hp : p.interface = .phase) : t.resp = s.resp := by
  cases he with
  | respond hne => exact absurd hp hne
  | rest | load | round | fold => rfl
  | _ => cases hp

end

/-- Settles O58: the writers of each element, read off the effect of the operation performed. -/
theorem stateElementsHaveOnlyTheirWriters : Obligations.StateElementsHaveOnlyTheirWriters := by
  intro i s t h
  have he := exec_effect h
  obtain ⟨hh, hvars, hw, ht, hphase, hblkcnt, hnblk, herrcode⟩ := he.job_writers
  obtain ⟨hie, hlenHi, hlenLo, hmsg⟩ := he.host_writers
  have hresp : t.resp = s.resp ∨ i.interface ≠ .phase :=
    or_iff_not_imp_right.mpr fun hi => he.resp_eq ((performed_interface_phase i).mpr (not_not.mp hi))
  exact ⟨hh, hvars, hw, ht, hphase, hblkcnt, hnblk, herrcode, hie, hlenHi, hlenLo, hmsg, hresp, he.frame⟩

end Sys2Proof.Machine
end

section
/-! The constant stores as root fractions (spec/10_state.md R41, R42), and the obligation that states them. -/

namespace Sys2Proof.Machine

/-! ### The primes -/

/-- Trial division by the primes below 19. -/
abbrev PassesTrialDivision (p : Nat) : Prop := 2 ≤ p ∧ ∀ m ∈ [2, 3, 5, 7, 11, 13, 17], m ∣ p → m = p

/-- A composite number below 19 * 19 has a prime divisor below 19. -/
theorem prime_iff_passesTrialDivision {p : Nat} (h : p < 19 * 19) : p.Prime ↔ PassesTrialDivision p := by
  have hsmall : ∀ m ∈ [2, 3, 5, 7, 11, 13, 17], m ≠ 1 := by decide
  have hlisted : ∀ m < 19, m.Prime → m ∈ [2, 3, 5, 7, 11, 13, 17] := by decide
  constructor
  · intro hp
    exact ⟨hp.two_le, fun m hm hdvd => (hp.eq_one_or_self_of_dvd m hdvd).resolve_left (hsmall m hm)⟩
  · rintro ⟨h2, hdiv⟩
    by_contra hp
    have hminFac : p.minFac.Prime := Nat.minFac_prime (by omega)
    have hsq : p.minFac ^ 2 ≤ p := Nat.minFac_sq_le_self (by omega) hp
    have hself : p.minFac = p := hdiv _ (hlisted _ (by nlinarith) hminFac) p.minFac_dvd
    exact hp (hself ▸ hminFac)

/-- The table lists what trial division leaves of the numbers below 312 = 13 * 24. -/
theorem mem_primes_iff_passesTrialDivision :
    ∀ q < 13, ∀ r < 24, 24 * q + r ∈ primes ↔ PassesTrialDivision (24 * q + r) := by
  decide

theorem mem_primes_iff {p : Nat} (h : p ≤ 311) : p ∈ primes ↔ p.Prime := by
  have htable := mem_primes_iff_passesTrialDivision (p / 24) (by omega) (p % 24) (by omega)
  rwa [Nat.div_add_mod, ← prime_iff_passesTrialDivision (by omega)] at htable

theorem le_of_mem_primes : ∀ p ∈ primes, p ≤ 311 := by decide

/-! ### The root fractions -/

/-- The number with integer part `c` and 32-bit fraction `v`, times 2^32. -/
def fixedPoint (c : Nat) (v : Word) : Nat := c * 2 ^ 32 + v.toNat

/-- The fraction of a fixed-point number is its residue modulo 2^32. -/
theorem toNat_eq_fixedPoint_mod (c : Nat) (v : Word) : v.toNat = fixedPoint c v % 2 ^ 32 := by
  have := v.isLt
  unfold fixedPoint
  omega

/-- Each K word is the fraction of the cube root of its prime, whose integer part is at most 6 (R41). -/
theorem kWord_cube_root :
    ∀ i : Fin 64, ∃ c : Fin 7, fixedPoint c (kWord (BitVec.ofNat 6 i)) ^ 3 ≤ primes.getD i 0 * 2 ^ 96 ∧
      primes.getD i 0 * 2 ^ 96 < (fixedPoint c (kWord (BitVec.ofNat 6 i)) + 1) ^ 3 := by
  decide

/-- Each IV word is the fraction of the square root of its prime, whose integer part is at most 4 (R42). -/
theorem ivTable_square_root :
    ∀ i : Fin 8, ∃ c : Fin 5, fixedPoint c ivTable[i] ^ 2 ≤ primes.getD i 0 * 2 ^ 64 ∧
      primes.getD i 0 * 2 ^ 64 < (fixedPoint c ivTable[i] + 1) ^ 2 := by
  decide

/-- Settles O18: the primes by trial division, and for each word the fixed-point root whose fraction it is. -/
theorem constantStoresAreRootFractions : Obligations.ConstantStoresAreRootFractions := by
  refine ⟨rfl, fun p hp => (mem_primes_iff (le_of_mem_primes p hp)).mp hp, fun p hp hle => (mem_primes_iff hle).mpr hp,
    by decide, fun i => ?_, fun i => ?_⟩
  · obtain ⟨c, hlo, hhi⟩ := kWord_cube_root i
    exact ⟨_, hlo, hhi, toNat_eq_fixedPoint_mod c _⟩
  · obtain ⟨c, hlo, hhi⟩ := ivTable_square_root i
    exact ⟨_, hlo, hhi, toNat_eq_fixedPoint_mod c _⟩

end Sys2Proof.Machine
end

section
/-! The instruction of the next event (spec/20_memory.md R95, spec/30_encoding.md R129): what a step runs, that a host request
is never the constructor WR32 with the address of CTRL, and the noninterference of the host with a running job. -/

namespace Sys2Proof.Machine

/-! ### What a step runs -/

theorem State.pop_of_inputs_cons {s : State} {e : Event} {rest : List Event} (h : s.inputs = e :: rest) :
    s.pop = { s with inputs := rest } := by
  rw [State.pop, h, List.tail_cons]

/-- An unmarked machine runs the request that is its next event (spec/20_memory.md R95). -/
theorem step_of_request {s : State} {q : Request} (hf : s.fault = none) (hq : s.nextEvent = .request q) :
    step s = exec (requestInstr q) s.pop := by
  rw [step, hf, hq]

/-- An unmarked machine whose next event is a core step runs the micro-operation of PHASE (spec/45_sequencer.md R288). -/
theorem step_of_clock {s : State} (hf : s.fault = none) (hc : s.nextEvent = .clock) :
    step s = exec s.microOp s.pop := by
  rw [step, hf, hc]

/-- Settles O6: the first pending event is the next one, and taking it off leaves the rest. -/
theorem stepRunsThePendingRequest : Obligations.StepRunsThePendingRequest := by
  intro s q rest hf hinputs
  refine ⟨?_, rfl⟩
  rw [step_of_request hf (nextEvent_of_cons hinputs), State.pop_of_inputs_cons hinputs, requestInstr]

/-- Settles O7: with no event pending the next one is a core step too, and there is none to take off. -/
theorem coreStepRunsTheMicroOpOfPhase : Obligations.CoreStepRunsTheMicroOpOfPhase := by
  refine fun s hf => ⟨fun hnil => ?_, fun rest hcons => ?_⟩
  · rw [step_of_clock hf (nextEvent_of_nil hnil), State.pop_of_inputs_nil s hnil, State.microOp]
  · rw [step_of_clock hf (nextEvent_of_cons hcons), State.pop_of_inputs_cons hcons, State.microOp]

/-! ### The operation a request performs -/

/-- Only a WR32 to CTRL performs another operation than itself (spec/46_host_interface.md R316). -/
theorem performed_of_ne_ctrl {i : Instr} (h : ∀ wdata, i ≠ .wr32 ctrlAddr wdata) : i.performed = i := by
  cases i with
  | wr32 addr wdata => exact performed_wr32_of_ne (fun ha => h wdata (by rw [ha])) wdata
  | _ => rfl

/-- Of the descriptors only WR32's decodes to a 4-byte write (spec/30_encoding.md R122). -/
theorem desc_of_decodeDesc_wr32 {q : Request} {addr wdata : Word} (h : decodeDesc q = .wr32 addr wdata) :
    q.desc = descWr32 ∧ q.addr = addr := by
  obtain ⟨desc, a, w⟩ := q
  have hdesc : ∀ d : BitVec 3, d.getLsbD 0 = false → d.getLsbD 2 = true → d.getLsbD 1 = true → d = descWr32 := by
    decide
  unfold decodeDesc at h
  split at h <;> cases h
  next h0 h2 h1 => exact ⟨hdesc desc h0 h2 h1, rfl⟩

/-- A 4-byte write to CTRL decodes to its command (R129). -/
theorem requestInstr_ne_ctrl (q : Request) (wdata : Word) : requestInstr q ≠ .wr32 ctrlAddr wdata := by
  intro h
  unfold requestInstr codeOfRequest at h
  split at h
  · have hcmd := decodeCommand_interface q.wdata
    rw [show decodeCommand q.wdata = .wr32 ctrlAddr wdata from h] at hcmd
    cases hcmd
  · next hne => exact hne (desc_of_decodeDesc_wr32 h)

theorem performed_requestInstr (q : Request) : (requestInstr q).performed = requestInstr q :=
  performed_of_ne_ctrl (requestInstr_ne_ctrl q)

/-! ### The host while a job runs -/

/-- While BUSY a host operation only answers, or is a NOP, or is a CLEAR: START and the writes to LEN and MSG are refused
(spec/20_memory.md R96, spec/46_host_interface.md R314). -/
theorem exec_next_of_busy {i : Instr} {s t : State} (hb : s.busy = true) (hi : i.interface ≠ .phase)
    (h : exec i s = .next t) :
    (∃ r v, t = s.respond r v) ∨
      (∃ ie, i.performed = .nop ie ∧ t = (s.withIe ie).respond .okay 0#32) ∨
      ∃ ie, i.performed = .clear ie := by
  cases i with
  | rd8 addr => exact .inl (execRd8_next h)
  | rd32 addr => exact .inl (execRd32_next h)
  | wr8 addr wdata =>
    rcases execWr8_next h with hr | ⟨hidle, -⟩
    · exact .inl hr
    · simp [hb] at hidle
  | wr32 addr wdata =>
    rcases execWr32_next h with hr | ⟨rfl, hctrl⟩ | ⟨-, hidle, -⟩ | ⟨-, hidle, -⟩ | ⟨hidle, -⟩
    · exact .inl hr
    · rw [performed_wr32_ctrl]
      rcases ctrlDispatch_next hctrl with ⟨r, ht⟩ | hnop | ⟨ie, -, hidle, -⟩ | ⟨ie, hd, -⟩
      · exact .inl ⟨r, _, ht⟩
      · exact .inr (.inl hnop)
      · simp [hb] at hidle
      · exact .inr (.inr ⟨ie, hd⟩)
    all_goals simp [hb] at hidle
  | rsvdSize desc addr wdata => exact .inl (execRsvdSize_next h)
  | nop ie => cases (execNop_eq ie s).symm.trans h; exact .inr (.inl ⟨ie, rfl, rfl⟩)
  | start ie =>
    have hrefused : execStart ie s = .next (s.respond .errBusy 0#32) := by rw [execStart_eq, hb]; rfl
    cases hrefused.symm.trans h
    exact .inl ⟨_, _, rfl⟩
  | clear ie => exact .inr (.inr ⟨ie, rfl⟩)
  | rsvdCmd3 | rsvdCmd4to7 | rsvdCmd8to15 => cases h; exact .inl ⟨_, _, rfl⟩
  | idle | load | round | fold | done | error | rsvdPhase => exact absurd rfl hi

/-- Settles O59: of the host's operations while BUSY, all but CLEAR only answer, and a NOP writes IE as well. -/
theorem busyJobIsUndisturbedByTheHost : Obligations.BusyJobIsUndisturbedByTheHost := by
  intro s t q hb hclear h
  have hcases := exec_next_of_busy hb (requestInstr_interface q) h
  rw [performed_requestInstr] at hcases
  rcases hcases with ⟨r, v, rfl⟩ | ⟨ie, hnop, rfl⟩ | ⟨ie, hcl⟩
  · exact ⟨rfl, .inl rfl⟩
  · exact ⟨rfl, .inr ⟨ie, hnop⟩⟩
  · exact absurd hcl (hclear ie)

end Sys2Proof.Machine
end

section
/-! The host's accesses of the message memory (spec/20_memory.md R84 to R87, R91): what Check answers at a MSG address, one rule
per access width and direction, and which message cells an instruction writes. -/

namespace Sys2Proof.Machine

/-! ### Reads see the core only -/

@[simp] theorem State.respond_busy (s : State) (c : Resp) (v : Word) : (s.respond c v).busy = s.busy := rfl

@[simp] theorem check_respond (rw : Access) (size : BitVec 2) (addr wdata : Word) (s : State) (c : Resp) (v : Word) :
    check rw size addr wdata (s.respond c v) = check rw size addr wdata s := by
  simp only [check, State.respond_msgBytes, State.respond_busy]

@[simp] theorem regValue_respond (s : State) (c : Resp) (v : Word) : regValue (s.respond c v) = regValue s := rfl

/-- The view is rewritten while its window is still a variable: with the window known, the kernel would compare the two views
by evaluating `a - msgBase` in unary. -/
@[simp] theorem viewByte_respond (s : State) (c : Resp) (v : Word) (window : Window) (a : Nat) :
    viewByte (s.respond c v) window a = viewByte s window a := by
  rw [viewByte.eq_def, viewByte.eq_def, State.respond_h, State.respond_msgCell]

@[simp] theorem viewWord_respond (s : State) (c : Resp) (v : Word) (window : Window) (a : Nat) :
    viewWord (s.respond c v) window a = viewWord s window a := by
  simp only [viewWord, viewByte_respond]

theorem readOutcome_respond {s t : State} {value : Except Fault Word} (c : Resp) (v : Word)
    (h : readOutcome s value = .next t) : readOutcome (s.respond c v) value = .next t := by
  obtain ⟨x, rfl, rfl⟩ := readOutcome_next h
  rfl

/-- A 1-byte read does not see the response port. -/
theorem execRd8_respond {addr : Word} {s t : State} (c : Resp) (v : Word) (h : execRd8 addr s = .next t) :
    execRd8 addr (s.respond c v) = .next t := by
  unfold execRd8 at h ⊢
  simp only [check_respond, viewByte_respond]
  split at h
  · exact h
  · exact h
  · exact readOutcome_respond c v h

/-- A 4-byte read does not see the response port. -/
theorem execRd32_respond {addr : Word} {s t : State} (c : Resp) (v : Word) (h : execRd32 addr s = .next t) :
    execRd32 addr (s.respond c v) = .next t := by
  unfold execRd32 at h ⊢
  simp only [check_respond, viewWord_respond, regValue_respond]
  split at h
  · exact h
  · exact h
  · exact readOutcome_respond c v h

/-- Settles O45: a read that completes writes the response port only, which the repeated read does not see. -/
theorem readsChangeNothing : Obligations.ReadsChangeNothing := by
  rintro s t i ⟨addr, rfl | rfl⟩ h
  · obtain ⟨r, v, rfl⟩ := execRd8_next h
    exact ⟨⟨rfl, rfl⟩, execRd8_respond r v h⟩
  · obtain ⟨r, v, rfl⟩ := execRd32_next h
    exact ⟨⟨rfl, rfl⟩, execRd32_respond r v h⟩

/-! ### Byte lanes (R84) -/

theorem laneByte_eq_extractLsb' (v : Word) {i : Nat} (hi : i < 4) : laneByte v i = v.extractLsb' (24 - 8 * i) 8 := by
  rw [laneByte, Nat.mod_eq_of_lt hi, BitVec.setWidth_ushiftRight_eq_extractLsb]

theorem writeByte_eq_extractLsb' (v : Word) : writeByte v = v.extractLsb' 0 8 :=
  BitVec.setWidth_eq_extractLsb' (by decide)

theorem setWidth_laneByte (v : Word) {i : Nat} (hi : i < 4) :
    (laneByte v i).setWidth 32 = (v >>> (24 - 8 * i)) &&& 0xFF#32 := by
  rw [laneByte, Nat.mod_eq_of_lt hi]
  refine BitVec.eq_of_toNat_eq ?_
  have hmask := Nat.and_two_pow_sub_one_eq_mod (v >>> (24 - 8 * i)).toNat 8
  rw [BitVec.toNat_and, BitVec.toNat_setWidth, BitVec.toNat_setWidth, Nat.mod_eq_of_lt (by omega)]
  exact hmask.symm

/-- The four lanes of a word join to the word. -/
theorem joinBytes_laneByte (v : Word) :
    joinBytes (laneByte v 0) (laneByte v 1) (laneByte v 2) (laneByte v 3) = v := by
  simp only [joinBytes, laneByte_eq_extractLsb', Nat.reduceLT, Nat.reduceMul, Nat.reduceSub]
  rw [BitVec.extractLsb'_append_extractLsb'_eq_extractLsb' (by rfl),
    BitVec.extractLsb'_append_extractLsb'_eq_extractLsb' (by rfl),
    BitVec.extractLsb'_append_extractLsb'_eq_extractLsb' (by rfl)]
  exact BitVec.extractLsb'_eq_self

/-! ### Message cells -/

/-- A written cell lies inside the capacity (R86). -/
theorem lt_of_msgCell {s : State} {k : Nat} {b : Byte} (h : s.msgCell k = some b) : k < s.msgBytes.toNat := by
  unfold State.msgCell at h
  split at h
  · assumption
  · cases h

theorem msgCell_congr {s t : State} (hmsg : t.msg = s.msg) (hcap : t.msgBytes = s.msgBytes) (k : Nat) :
    t.msgCell k = s.msgCell k := by
  rw [State.msgCell, State.msgCell, hmsg, hcap]

/-- The cells outside the four that a word covers, whatever the capacity (R87). -/
theorem storeWord_msgCell_outside (s : State) {k j : Nat} (v : Word) (hj : j < k ∨ k + 3 < j) :
    (s.storeWord k v).msgCell j = s.msgCell j := by
  have h0 : j ≠ k := by omega
  have h1 : j ≠ k + 1 := by omega
  have h2 : j ≠ k + 2 := by omega
  have h3 : j ≠ k + 3 := by omega
  simp [State.msgCell, Memory.read_write, h0, h1, h2, h3]

/-- The four cells that a word covers hold its lanes (R84, R87). -/
theorem storeWord_msgCell_lane (s : State) {k i : Nat} (v : Word) (hk : k + 3 < s.msgBytes.toNat) (hi : i < 4) :
    (s.storeWord k v).msgCell (k + i) = some (laneByte v i) := by
  rw [State.storeWord_msgCell s v hk]
  interval_cases i <;> simp

/-! ### Check at a message address -/

/-- At or above MSG_BASE lies no window but MSG (R81). -/
theorem windowAt_of_msgBase_le {n a : Nat} (h : msgBase ≤ a) :
    windowAt n a = if a < msgBase + n then some .msg else none := by
  have hhreg : ¬(hregBase ≤ a ∧ a < hregBase + 32) := by unfold hregBase msgBase at *; omega
  have hhex : ¬(hexBase ≤ a ∧ a < hexBase + 64) := by unfold hexBase msgBase at *; omega
  have hbits : ¬(bitsBase ≤ a ∧ a < bitsBase + 256) := by unfold bitsBase msgBase at *; omega
  simp [windowAt, hhreg, hhex, hbits, h]

theorem eq_msg_of_regionOf {n addr : Word} {g : Region} (hbase : msgBase ≤ addr.toNat)
    (hg : regionOf n addr = some g) : g = .window .msg := by
  cases g with
  | reg r =>
    obtain ⟨hlow, -⟩ := regAt_eq_some (regionOf_reg.mp hg)
    unfold msgBase at hbase
    omega
  | window w =>
    obtain ⟨-, hw⟩ := regionOf_window.mp hg
    rw [windowAt_of_msgBase_le hbase] at hw
    split at hw <;> cases hw
    rfl

theorem commandRefusal_ne_okay (cmd : BitVec 4) (busy : Bool) : commandRefusal cmd busy ≠ some .okay := by
  unfold commandRefusal
  split
  · simp
  · split <;> simp

theorem writeRefusal_ne_okay (g : Region) (wdata : Word) (busy : Bool) : writeRefusal g wdata busy ≠ some .okay := by
  cases g with
  | reg r =>
    cases r with
    | ctrl => exact commandRefusal_ne_okay _ _
    | lenHi | lenLo => cases busy <;> simp [writeRefusal]
    | status | nblk | blkcnt | msgsz => simp [writeRefusal]
  | window w =>
    cases w with
    | msg => cases busy <;> simp [writeRefusal]
    | hreg | hex | bits => simp [writeRefusal]

/-- Check never refuses with OKAY (spec/46_host_interface.md R314). -/
theorem check_ne_okay (rw : Access) (size : BitVec 2) (addr wdata : Word) (s : State) :
    check rw size addr wdata s ≠ .error .okay := by
  intro h
  simp only [check] at h
  split at h
  · cases h
  split at h
  · cases h
  split at h
  · cases h
  next g _ =>
    split at h
    · cases h
    cases rw with
    | read => cases h
    | write =>
      simp only at h
      split at h
      · next r hr => cases h; exact writeRefusal_ne_okay _ _ _ hr
      · cases h

/-- The host address of cell k (R87). -/
theorem toNat_msgAddr {k : Nat} (hk : k < 2 ^ 31) : (BitVec.ofNat 32 (msgBase + k)).toNat = msgBase + k := by
  rw [BitVec.toNat_ofNat, Nat.mod_eq_of_lt]
  unfold msgBase
  omega

section
variable {s : State} {addr : Word} {k : Nat} (haddr : addr.toNat = msgBase + k)
include haddr

/-- An access to an existing message cell, a word's aligned, passes Check unless it writes while BUSY (R314). -/
theorem check_msg {rw : Access} {size : BitVec 2} {wdata : Word} (hk : k < s.msgBytes.toNat)
    (hsize : size = 0#2 ∨ size = 2#2 ∧ k % 4 = 0) (hb : rw = .write → s.busy = false) :
    check rw size addr wdata s = .ok (.window .msg) := by
  have hregion : regionOf s.msgBytes addr = some (.window .msg) := regionOf_msg.mpr (by omega)
  have hsz : ¬(accessBytes size ≠ 1 ∧ accessBytes size ≠ 4) := by
    rcases hsize with rfl | ⟨rfl, -⟩ <;> simp
  have halign : ¬(accessBytes size = 4 ∧ addr.toNat % 4 ≠ 0) := by
    rcases hsize with rfl | ⟨rfl, h4⟩
    · simp
    · unfold msgBase at haddr
      omega
  simp only [check, if_neg hsz, if_neg halign, hregion]
  cases rw with
  | read => rfl
  | write => simp [Region.isReg, writeRefusal, hb rfl]

/-- RD8 of a message cell answers its byte view (R311). -/
theorem execRd8_msg (hk : k < s.msgBytes.toNat) :
    execRd8 addr s = readOutcome s ((viewByte s .msg (msgBase + k)).map (fun b => b.setWidth 32)) := by
  have hcheck : check .read 0#2 addr 0#32 s = .ok (.window .msg) := check_msg haddr hk (.inl rfl) (fun h => nomatch h)
  simp only [execRd8, hcheck, haddr]

/-- RD32 of an aligned message cell answers its word view (R310). -/
theorem execRd32_msg (hk : k < s.msgBytes.toNat) (h4 : k % 4 = 0) :
    execRd32 addr s = readOutcome s (viewWord s .msg (msgBase + k)) := by
  have hcheck : check .read 2#2 addr 0#32 s = .ok (.window .msg) :=
    check_msg haddr hk (.inr ⟨rfl, h4⟩) (fun h => nomatch h)
  simp only [execRd32, hcheck, haddr]

/-- WR8 to a message cell while not BUSY stores the byte (R313). -/
theorem execWr8_msg (hk : k < s.msgBytes.toNat) (hb : s.busy = false) (wdata : Word) :
    execWr8 addr wdata s = .next ((s.storeByte k (writeByte wdata)).respond .okay 0#32) := by
  simp only [execWr8, check_msg haddr hk (.inl rfl) (fun _ => hb), haddr, Nat.add_sub_cancel_left]

/-- WR32 to an aligned message cell while not BUSY stores the word (R312). -/
theorem execWr32_msg (hk : k < s.msgBytes.toNat) (h4 : k % 4 = 0) (hb : s.busy = false) (wdata : Word) :
    execWr32 addr wdata s = .next ((s.storeWord k wdata).respond .okay 0#32) := by
  simp only [execWr32, check_msg haddr hk (.inr ⟨rfl, h4⟩) (fun _ => hb), haddr, Nat.add_sub_cancel_left]

end

/-! ### Reads of MSG -/

/-- The byte view of a written cell (spec/46_host_interface.md R315). -/
theorem viewByte_msg_written {s : State} {k : Nat} {b : Byte} (h : s.msgCell k = some b) :
    viewByte s .msg (msgBase + k) = .ok b := by
  rw [viewByte.eq_def, Nat.add_sub_cancel_left, h]

theorem viewByte_msg_unwritten {s : State} {k : Nat} (h : s.msgCell k = none) :
    viewByte s .msg (msgBase + k) = .error .unwrittenMessageRead := by
  rw [viewByte.eq_def, Nat.add_sub_cancel_left, h]

/-- The word view of four written cells (R310). -/
theorem viewWord_msg_written {s : State} {k : Nat} {b0 b1 b2 b3 : Byte} (h0 : s.msgCell k = some b0)
    (h1 : s.msgCell (k + 1) = some b1) (h2 : s.msgCell (k + 2) = some b2) (h3 : s.msgCell (k + 3) = some b3) :
    viewWord s .msg (msgBase + k) = .ok (joinBytes b0 b1 b2 b3) := by
  simp only [viewWord, Nat.add_assoc, viewByte_msg_written h0, viewByte_msg_written h1, viewByte_msg_written h2,
    viewByte_msg_written h3]
  rfl

/-- The first unwritten cell of a word's four is the fault of the word view (R315). -/
theorem viewWord_msg_unwritten {s : State} {k : Nat}
    (h : s.msgCell k = none ∨ s.msgCell (k + 1) = none ∨ s.msgCell (k + 2) = none ∨ s.msgCell (k + 3) = none) :
    viewWord s .msg (msgBase + k) = .error .unwrittenMessageRead := by
  simp only [viewWord, Nat.add_assoc]
  cases h0 : s.msgCell k with
  | none => rw [viewByte_msg_unwritten h0]; rfl
  | some b0 =>
    rw [viewByte_msg_written h0]
    cases h1 : s.msgCell (k + 1) with
    | none => rw [viewByte_msg_unwritten h1]; rfl
    | some b1 =>
      rw [viewByte_msg_written h1]
      cases h2 : s.msgCell (k + 2) with
      | none => rw [viewByte_msg_unwritten h2]; rfl
      | some b2 =>
        have h3 : s.msgCell (k + 3) = none := by simpa [h0, h1, h2] using h
        rw [viewByte_msg_written h2, viewByte_msg_unwritten h3]
        rfl

section
variable {s : State} {addr : Word} {k : Nat} (haddr : addr.toNat = msgBase + k)
include haddr

theorem execRd8_msg_written {b : Byte} (h : s.msgCell k = some b) :
    execRd8 addr s = .next (s.respond .okay (b.setWidth 32)) := by
  rw [execRd8_msg haddr (lt_of_msgCell h), viewByte_msg_written h]
  rfl

theorem execRd8_msg_unwritten (hk : k < s.msgBytes.toNat) (h : s.msgCell k = none) :
    execRd8 addr s = .fault .unwrittenMessageRead := by
  rw [execRd8_msg haddr hk, viewByte_msg_unwritten h]
  rfl

theorem execRd32_msg_written {b0 b1 b2 b3 : Byte} (h4 : k % 4 = 0) (h0 : s.msgCell k = some b0)
    (h1 : s.msgCell (k + 1) = some b1) (h2 : s.msgCell (k + 2) = some b2) (h3 : s.msgCell (k + 3) = some b3) :
    execRd32 addr s = .next (s.respond .okay (joinBytes b0 b1 b2 b3)) := by
  rw [execRd32_msg haddr (lt_of_msgCell h0) h4, viewWord_msg_written h0 h1 h2 h3]
  rfl

theorem execRd32_msg_unwritten (h4 : k % 4 = 0) (hk : k < s.msgBytes.toNat)
    (h : s.msgCell k = none ∨ s.msgCell (k + 1) = none ∨ s.msgCell (k + 2) = none ∨ s.msgCell (k + 3) = none) :
    execRd32 addr s = .fault .unwrittenMessageRead := by
  rw [execRd32_msg haddr hk h4, viewWord_msg_unwritten h]
  rfl

end

/-- Settles O46: the byte and the word view of MSG, at the address of each cell. -/
theorem messageReadsReturnWrittenCells : Obligations.MessageReadsReturnWrittenCells := by
  intro s k hcap
  have haddr : k < s.msgBytes.toNat → (BitVec.ofNat 32 (msgBase + k)).toNat = msgBase + k :=
    fun hk => toNat_msgAddr (by omega)
  refine ⟨fun b hb => ?_, fun hk hnone => ?_, fun h4 b0 b1 b2 b3 h0 h1 h2 h3 => ?_, fun h4 hk hnone => ?_⟩
  · exact execRd8_msg_written (haddr (lt_of_msgCell hb)) hb
  · exact execRd8_msg_unwritten (haddr hk) hk hnone
  · exact execRd32_msg_written (haddr (lt_of_msgCell h0)) h4 h0 h1 h2 h3
  · exact execRd32_msg_unwritten (haddr hk) h4 hk hnone

/-! ### Writes of MSG -/

/-- Settles O47: each store sets its lanes, and an aligned word's four cells lie inside a legal capacity. -/
theorem messageWritesSetTheirCells : Obligations.MessageWritesSetTheirCells := by
  rintro s k wdata ⟨hcap4, -, hcap⟩ hb hk
  have haddr : (BitVec.ofNat 32 (msgBase + k)).toNat = msgBase + k := toNat_msgAddr (by omega)
  refine ⟨⟨_, execWr8_msg haddr hk hb wdata, rfl, fun j => ?_⟩,
    fun h4 => ⟨_, execWr32_msg haddr hk h4 hb wdata, rfl, fun j => ?_⟩⟩
  · rw [State.respond_msgCell, State.storeByte_msgCell s _ hk, writeByte_eq_extractLsb']
  · rw [State.respond_msgCell, State.storeWord_msgCell s _ (by omega), laneByte_eq_extractLsb' wdata (by decide),
      laneByte_eq_extractLsb' wdata (by decide), laneByte_eq_extractLsb' wdata (by decide),
      laneByte_eq_extractLsb' wdata (by decide)]

/-- A WR32 at or above MSG_BASE that answers OKAY has stored its word in MSG (spec/46_host_interface.md R312, R314). -/
theorem execWr32_msg_okay {addr wdata v : Word} {s t : State} (hbase : msgBase ≤ addr.toNat)
    (h : execWr32 addr wdata s = .next t) (hokay : t.resp = some ⟨.okay, v⟩) :
    addr.toNat % 4 = 0 ∧ addr.toNat - msgBase < s.msgBytes.toNat ∧
      t = (s.storeWord (addr.toNat - msgBase) wdata).respond .okay 0#32 := by
  cases hc : check .write 2#2 addr wdata s with
  | error r =>
    simp only [execWr32, hc] at h
    cases h
    cases hokay
    exact absurd hc (check_ne_okay _ _ _ _ _)
  | ok g =>
    obtain ⟨-, halign, hregion, -, -⟩ := check_ok hc
    cases eq_msg_of_regionOf hbase hregion
    have hm := regionOf_msg.mp hregion
    simp only [execWr32, hc] at h
    cases h
    exact ⟨halign rfl, by omega, rfl⟩

/-- Settles O48: the four lanes of the stored word, read one by one and joined. -/
theorem mixedWidthAccessesAgree : Obligations.MixedWidthAccessesAgree := by
  rintro s t addr wdata ⟨hcap4, -, hcap⟩ hbase h hokay
  obtain ⟨h4, hk, rfl⟩ := execWr32_msg_okay hbase h hokay
  obtain ⟨k, haddr⟩ : ∃ k, addr.toNat = msgBase + k := Nat.exists_eq_add_of_le hbase
  rw [haddr, Nat.add_sub_cancel_left] at hk ⊢
  have hk4 : k % 4 = 0 := by unfold msgBase at haddr; omega
  have hlane : ∀ i < 4, ((s.storeWord k wdata).respond .okay 0#32).msgCell (k + i) = some (laneByte wdata i) :=
    fun i hi => storeWord_msgCell_lane s wdata (by omega) hi
  refine ⟨fun i hi => ?_, ?_⟩
  · have haddri : (addr + BitVec.ofNat 32 i).toNat = msgBase + (k + i) := by
      rw [BitVec.toNat_add, BitVec.toNat_ofNat, haddr]
      unfold msgBase
      omega
    rw [← setWidth_laneByte wdata hi]
    exact execRd8_msg_written haddri (hlane i hi)
  · have hread := execRd32_msg_written haddr hk4 (hlane 0 (by decide)) (hlane 1 (by decide)) (hlane 2 (by decide))
      (hlane 3 (by decide))
    rwa [joinBytes_laneByte] at hread

/-! ### Which cells an instruction writes -/

/-- An instruction leaves the message memory as it was, or is a WR8 or a WR32 that stores at its address less MSG_BASE
(R87). -/
theorem exec_msg {i : Instr} {s t : State} (h : exec i s = .next t) :
    t.msg = s.msg ∨
      (∃ addr wdata, i = .wr8 addr wdata ∧ msgBase ≤ addr.toNat ∧ addr.toNat - msgBase < s.msgBytes.toNat ∧
        t = (s.storeByte (addr.toNat - msgBase) (writeByte wdata)).respond .okay 0#32) ∨
      (∃ addr wdata, i = .wr32 addr wdata ∧ msgBase ≤ addr.toNat ∧
        t = (s.storeWord (addr.toNat - msgBase) wdata).respond .okay 0#32) := by
  obtain ⟨-, -, -, hmsg | ⟨addr, wdata, hp⟩⟩ := (exec_effect h).host_writers
  · exact .inl hmsg
  have hctrl : ∀ v, i ≠ .wr32 ctrlAddr v := by
    rintro v rfl
    have hcmd := decodeCommand_interface v
    rw [← performed_wr32_ctrl] at hcmd
    rcases hp with hp | hp <;> rw [hp] at hcmd <;> cases hcmd
  rw [performed_of_ne_ctrl hctrl] at hp
  rcases hp with rfl | rfl
  · rcases execWr8_next h with ⟨r, v, rfl⟩ | ⟨-, hbase, hk, ht⟩
    · exact .inl rfl
    · exact .inr (.inl ⟨addr, wdata, rfl, hbase, hk, ht⟩)
  · rcases execWr32_next h with ⟨r, v, rfl⟩ | ⟨rfl, -⟩ | ⟨-, -, rfl⟩ | ⟨-, -, rfl⟩ | ⟨-, hbase, -, -, ht⟩
    · exact .inl rfl
    · exact absurd rfl (hctrl wdata)
    · exact .inl rfl
    · exact .inl rfl
    · exact .inr (.inr ⟨addr, wdata, rfl, hbase, ht⟩)

/-- Settles O49: by which of the two stores, if any, the instruction makes. -/
theorem onlyMessageWritesTouchMessageCells : Obligations.OnlyMessageWritesTouchMessageCells := by
  intro i s t h
  obtain ⟨-, hcap, -⟩ := (exec_effect h).frame
  rcases exec_msg h with hmsg | ⟨addr, wdata, rfl, hbase, hk, rfl⟩ | ⟨addr, wdata, rfl, hbase, rfl⟩
  · have hcell := msgCell_congr hmsg hcap
    exact ⟨fun _ => hcell, fun _ _ _ k _ => hcell k, fun _ _ _ k _ => hcell k, fun _ _ _ _ => hmsg⟩
  · refine ⟨fun hne => absurd rfl (hne addr wdata).1, fun _ _ heq j hj => ?_, fun _ _ heq => (nomatch heq),
      fun _ _ heq hlow => ?_⟩
    · cases heq
      rw [State.respond_msgCell, State.storeByte_msgCell s _ hk, if_neg hj]
    · rcases heq with heq | heq <;> cases heq
      omega
  · refine ⟨fun hne => absurd rfl (hne addr wdata).2, fun _ _ heq => (nomatch heq), fun _ _ heq j hj => ?_,
      fun _ _ heq hlow => ?_⟩
    · cases heq
      exact storeWord_msgCell_outside s wdata hj
    · rcases heq with heq | heq <;> cases heq
      omega

end Sys2Proof.Machine
end

section
/-! The three encoded interfaces (spec/30_encoding.md): the tables of R122, R123 and R125 as one relation between a code word
and an operation, which the decoder computes, and what the encoder and spec/opcode_table.json say of each row. -/

namespace Sys2Proof.Machine

open Sys2Proof.Laws

/-! ### The tables as a relation -/

/-- A CTRL write's data carries the command `cmd` and the bit `ie` (R123). -/
def CarriesCommand (wdata : Word) (cmd : BitVec 4) (ie : Bool) : Prop :=
  cmdField wdata = cmd ∧ ieField wdata = ie

/-- `Listed c i`: a row of the tables of R122, R123 and R125 reads the code word `c` as the operation `i`. One constructor per
row; a reserved row's hypothesis is its range. -/
inductive Listed : CodeWord → Instr → Prop where
  | rd8 (addr wdata : Word) : Listed (.txn ⟨0b000#3, addr, wdata⟩) (.rd8 addr)
  | rd32 (addr wdata : Word) : Listed (.txn ⟨0b010#3, addr, wdata⟩) (.rd32 addr)
  | wr8 (addr wdata : Word) : Listed (.txn ⟨0b100#3, addr, wdata⟩) (.wr8 addr wdata)
  | wr32 (addr wdata : Word) : Listed (.txn ⟨0b110#3, addr, wdata⟩) (.wr32 addr wdata)
  | rsvdSize {desc : BitVec 3} (hdesc : desc.getLsbD 0 = true) (addr wdata : Word) :
      Listed (.txn ⟨desc, addr, wdata⟩) (.rsvdSize desc addr wdata)
  | nop {wdata : Word} {ie : Bool} (h : CarriesCommand wdata 0x0#4 ie) : Listed (.ctrlCmd wdata) (.nop ie)
  | start {wdata : Word} {ie : Bool} (h : CarriesCommand wdata 0x1#4 ie) : Listed (.ctrlCmd wdata) (.start ie)
  | clear {wdata : Word} {ie : Bool} (h : CarriesCommand wdata 0x2#4 ie) : Listed (.ctrlCmd wdata) (.clear ie)
  | rsvdCmd3 {wdata : Word} {ie : Bool} (h : CarriesCommand wdata 0x3#4 ie) : Listed (.ctrlCmd wdata) (.rsvdCmd3 ie)
  | rsvdCmd4to7 {wdata : Word} {cmd : BitVec 4} {ie : Bool} (h : CarriesCommand wdata cmd ie)
      (hcmd : (!cmd.getLsbD 3 && cmd.getLsbD 2) = true) : Listed (.ctrlCmd wdata) (.rsvdCmd4to7 cmd ie)
  | rsvdCmd8to15 {wdata : Word} {cmd : BitVec 4} {ie : Bool} (h : CarriesCommand wdata cmd ie)
      (hcmd : cmd.getLsbD 3 = true) : Listed (.ctrlCmd wdata) (.rsvdCmd8to15 cmd ie)
  | idle : Listed (.phase 0#3) .idle
  | load : Listed (.phase 1#3) .load
  | round : Listed (.phase 2#3) .round
  | fold : Listed (.phase 3#3) .fold
  | done : Listed (.phase 4#3) .done
  | error : Listed (.phase 5#3) .error
  | rsvdPhase {code : BitVec 3} (hcode : (code.getLsbD 2 && code.getLsbD 1) = true) :
      Listed (.phase code) (.rsvdPhase code)

theorem carriesCommand_ctrlWord (cmd : BitVec 4) (ie : Bool) : CarriesCommand (ctrlWord cmd ie) cmd ie :=
  ⟨cmdField_ctrlWord cmd ie, ieField_ctrlWord cmd ie⟩

theorem desc_cases : ∀ desc : BitVec 3,
    desc = 0b000#3 ∨ desc = 0b010#3 ∨ desc = 0b100#3 ∨ desc = 0b110#3 ∨ desc.getLsbD 0 = true := by decide

theorem cmd_cases : ∀ cmd : BitVec 4,
    cmd = 0x0#4 ∨ cmd = 0x1#4 ∨ cmd = 0x2#4 ∨ cmd = 0x3#4 ∨ (!cmd.getLsbD 3 && cmd.getLsbD 2) = true ∨
      cmd.getLsbD 3 = true := by decide

theorem phase_cases : ∀ code : BitVec 3,
    code = 0#3 ∨ code = 1#3 ∨ code = 2#3 ∨ code = 3#3 ∨ code = 4#3 ∨ code = 5#3 ∨
      (code.getLsbD 2 && code.getLsbD 1) = true := by decide

/-- The tables leave no code word out. -/
theorem exists_listed : ∀ c : CodeWord, ∃ i, Listed c i
  | .txn ⟨desc, addr, wdata⟩ => by
    rcases desc_cases desc with rfl | rfl | rfl | rfl | h
    · exact ⟨_, .rd8 addr wdata⟩
    · exact ⟨_, .rd32 addr wdata⟩
    · exact ⟨_, .wr8 addr wdata⟩
    · exact ⟨_, .wr32 addr wdata⟩
    · exact ⟨_, .rsvdSize h addr wdata⟩
  | .ctrlCmd wdata => by
    rcases cmd_cases (cmdField wdata) with h | h | h | h | h | h
    · exact ⟨_, .nop ⟨h, rfl⟩⟩
    · exact ⟨_, .start ⟨h, rfl⟩⟩
    · exact ⟨_, .clear ⟨h, rfl⟩⟩
    · exact ⟨_, .rsvdCmd3 ⟨h, rfl⟩⟩
    · exact ⟨_, .rsvdCmd4to7 ⟨rfl, rfl⟩ h⟩
    · exact ⟨_, .rsvdCmd8to15 ⟨rfl, rfl⟩ h⟩
  | .phase code => by
    rcases phase_cases code with rfl | rfl | rfl | rfl | rfl | rfl | h
    · exact ⟨_, .idle⟩
    · exact ⟨_, .load⟩
    · exact ⟨_, .round⟩
    · exact ⟨_, .fold⟩
    · exact ⟨_, .done⟩
    · exact ⟨_, .error⟩
    · exact ⟨_, .rsvdPhase h⟩

/-! ### The decoder computes the relation -/

/-- The decoder reads a listed code word as its row says, so no two rows list one. -/
theorem Listed.decode_eq {c : CodeWord} {i : Instr} (h : Listed c i) : decode c = i := by
  cases h with
  | rd8 | rd32 | wr8 | wr32 => simp [decode, decodeDesc]
  | rsvdSize hdesc => simp only [decode, decodeDesc, hdesc]
  | nop h | start h | clear h | rsvdCmd3 h =>
    obtain ⟨hcmd, rfl⟩ := h
    simp [decode, decodeCommand, hcmd]
  | rsvdCmd4to7 h hcmd =>
    obtain ⟨rfl, rfl⟩ := h
    rw [Bool.and_eq_true, Bool.not_eq_true'] at hcmd
    simp only [decode, decodeCommand, hcmd]
  | rsvdCmd8to15 h hcmd =>
    obtain ⟨rfl, rfl⟩ := h
    simp only [decode, decodeCommand, hcmd]
  | rsvdPhase hcode =>
    rw [Bool.and_eq_true] at hcode
    simp only [decode, decodePhase, hcode]
  | _ => rfl

theorem listed_decode (c : CodeWord) : Listed c (decode c) := by
  obtain ⟨i, h⟩ := exists_listed c
  rwa [h.decode_eq]

/-! ### The encoder -/

/-- The encoder puts a well-formed instruction under its own row. -/
theorem listed_encode {i : Instr} (h : i.wellFormed = true) : Listed (encode i) i := by
  cases i with
  | rsvdSize desc addr wdata => exact .rsvdSize h addr wdata
  | nop ie => exact .nop (carriesCommand_ctrlWord _ ie)
  | start ie => exact .start (carriesCommand_ctrlWord _ ie)
  | clear ie => exact .clear (carriesCommand_ctrlWord _ ie)
  | rsvdCmd3 ie => exact .rsvdCmd3 (carriesCommand_ctrlWord _ ie)
  | rsvdCmd4to7 cmd ie => exact .rsvdCmd4to7 (carriesCommand_ctrlWord cmd ie) h
  | rsvdCmd8to15 cmd ie => exact .rsvdCmd8to15 (carriesCommand_ctrlWord cmd ie) h
  | rsvdPhase code => exact .rsvdPhase h
  | _ => constructor

/-- Settles O1: the encoder's word lies in the instruction's own row, and the decoder reads that row. -/
theorem decodeInvertsEncode : Obligations.DecodeInvertsEncode :=
  fun _ h => (listed_encode h).decode_eq

/-- CMD stands in bits 3:0 and IE in bit 8 (R123). -/
theorem getLsbD_ctrlWord (cmd : BitVec 4) (ie : Bool) (i : Nat) :
    (ctrlWord cmd ie).getLsbD i = if i < 4 then cmd.getLsbD i else decide (i = 8) && ie := by
  simp only [ctrlWord, BitVec.getLsbD_append, BitVec.getLsbD_zero, BitVec.getLsbD_ofBool]
  rcases lt_trichotomy i 8 with h | rfl | h
  · have hignored : i - 4 < 4 := by omega
    simp [hignored, h.ne]
  · simp
  · have hhigh : ¬i < 4 ∧ ¬i - 4 < 4 ∧ i - 4 - 4 ≠ 0 := by omega
    simp [hhigh, h.ne']

/-- The word that carries `cmd` and `ie` alone is the masked one: bits 3:0 and 8 kept, the ignored ones 0 (R123). -/
theorem CarriesCommand.ctrlWord_eq {wdata : Word} {cmd : BitVec 4} {ie : Bool} (h : CarriesCommand wdata cmd ie) :
    ctrlWord cmd ie = wdata &&& 0x0000_010F#32 := by
  obtain ⟨rfl, rfl⟩ := h
  have hmask : ∀ i < 32, (0x0000_010F#32).getLsbD i = (decide (i < 4) || decide (i = 8)) := by decide
  refine BitVec.eq_of_getLsbD_eq fun i hi => ?_
  rw [getLsbD_ctrlWord, BitVec.getLsbD_and, hmask i hi, cmdField, ieField, BitVec.getLsbD_extractLsb']
  by_cases hlow : i < 4
  · simp [hlow]
  · by_cases hie : i = 8
    · subst hie; simp
    · simp [hlow, hie]

/-- The encoder keeps of a code word the bits that its row does not ignore (R120, R123). -/
theorem Listed.encode_eq {c : CodeWord} {i : Instr} (h : Listed c i) : encode i = c.canonical := by
  cases h with
  | @rsvdSize desc hdesc =>
    have hread : ¬(desc = 0b000#3 ∨ desc = 0b010#3) := by rintro (rfl | rfl) <;> cases hdesc
    simp only [encode, CodeWord.canonical, if_neg hread]
  | nop h | start h | clear h | rsvdCmd3 h | rsvdCmd4to7 h | rsvdCmd8to15 h =>
    exact congrArg CodeWord.ctrlCmd h.ctrlWord_eq
  | _ => rfl

/-- Settles O2: row by row, by the encoder's value on a listed word. -/
theorem encodeInvertsDecodeUpToIgnoredBits : Obligations.EncodeInvertsDecodeUpToIgnoredBits :=
  fun c => (listed_decode c).encode_eq

/-! ### Well-formedness and the interfaces -/

theorem Listed.wellFormed {c : CodeWord} {i : Instr} (h : Listed c i) : i.wellFormed = true := by
  cases h with
  | rsvdSize h | rsvdCmd4to7 _ h | rsvdCmd8to15 _ h | rsvdPhase h => exact h
  | _ => rfl

theorem Listed.interface_eq {c : CodeWord} {i : Instr} (h : Listed c i) : i.interface = c.interface := by
  cases h <;> rfl

/-- Settles O3: every row of the three tables lists well-formed instructions of its interface. -/
theorem everyCodeWordDecodesWellFormed : Obligations.EveryCodeWordDecodesWellFormed :=
  fun c => ⟨(listed_decode c).wellFormed, (listed_decode c).interface_eq⟩

/-! ### The opcode table -/

/-- The encoder's word for a well-formed instruction is listed by the instruction's own row of the opcode table. -/
theorem tableRow : ∀ i : Instr, TableRow.Statement i
  | .rd8 addr => TableRow.rd8 addr
  | .rd32 addr => TableRow.rd32 addr
  | .wr8 addr wdata => TableRow.wr8 addr wdata
  | .wr32 addr wdata => TableRow.wr32 addr wdata
  | .rsvdSize desc addr wdata => TableRow.rsvdSize desc addr wdata
  | .nop ie => TableRow.nop ie
  | .start ie => TableRow.start ie
  | .clear ie => TableRow.clear ie
  | .rsvdCmd3 ie => TableRow.rsvdCmd3 ie
  | .rsvdCmd4to7 cmd ie => TableRow.rsvdCmd4to7 cmd ie
  | .rsvdCmd8to15 cmd ie => TableRow.rsvdCmd8to15 cmd ie
  | .idle => TableRow.idle
  | .load => TableRow.load
  | .round => TableRow.round
  | .fold => TableRow.fold
  | .done => TableRow.done
  | .error => TableRow.error
  | .rsvdPhase code => TableRow.rsvdPhase code

@[simp] theorem canonical_interface (c : CodeWord) : c.canonical.interface = c.interface := by cases c <;> rfl

/-- The ignored bits select nothing. -/
@[simp] theorem canonical_selector (c : CodeWord) : c.canonical.selector = c.selector := by
  cases c with
  | ctrlCmd wdata =>
    have hmasked : CarriesCommand wdata (cmdField wdata) (ieField wdata) := ⟨rfl, rfl⟩
    simp only [CodeWord.canonical, CodeWord.selector, ← hmasked.ctrlWord_eq, cmdField_ctrlWord]
  | _ => rfl

theorem selector_lt (c : CodeWord) : c.selector < 16 := by
  cases c with
  | txn r => exact r.desc.isLt.trans (by decide)
  | ctrlCmd wdata => exact (cmdField wdata).isLt
  | phase code => exact code.isLt.trans (by decide)

/-- The rows of an interface are disjoint: no two list one selector. -/
theorem opcodeTable_disjoint (iface : Interface) :
    ∀ selector < 16, (opcodeTable.filter (fun row => row.matches iface selector)).length ≤ 1 := by
  cases iface <;> decide

/-- Settles O4: a row of the decoded instruction lists the word, because one lists the encoder's word and that differs in
ignored bits only; the rows are disjoint, so no other row does. -/
theorem exactlyOneTableRowListsEachCodeWord : Obligations.ExactlyOneTableRowListsEachCodeWord := by
  intro c
  obtain ⟨row, hmem, hname, -, hmatch⟩ := tableRow (decode c) (listed_decode c).wellFormed
  rw [(listed_decode c).encode_eq, canonical_interface, canonical_selector] at hmatch
  have hrow : row ∈ opcodeTable.filter (fun row => row.matches c.interface c.selector) :=
    List.mem_filter.mpr ⟨hmem, hmatch⟩
  obtain ⟨only, honly⟩ := List.length_eq_one_iff.mp
    (le_antisymm (opcodeTable_disjoint c.interface c.selector (selector_lt c)) (List.length_pos_of_mem hrow))
  rw [honly, List.mem_singleton] at hrow
  rw [honly, ← hname, hrow, List.map_singleton]

/-! ### Fixed words and the refused sizes -/

/-- Settles O5: the row that each word lies in. -/
theorem listedWordsDecodeAsTabled : Obligations.ListedWordsDecodeAsTabled :=
  ⟨(Listed.rd8 _ _).decode_eq, (Listed.rd32 _ _).decode_eq, (Listed.wr8 _ _).decode_eq, (Listed.wr32 _ _).decode_eq,
    (Listed.rsvdSize rfl _ _).decode_eq, (Listed.nop ⟨rfl, rfl⟩).decode_eq, (Listed.start ⟨rfl, rfl⟩).decode_eq,
    (Listed.clear ⟨rfl, rfl⟩).decode_eq, (Listed.rsvdCmd3 ⟨rfl, rfl⟩).decode_eq, Listed.round.decode_eq,
    (Listed.rsvdPhase rfl).decode_eq⟩

@[simp] theorem descSize_getLsbD_zero (desc : BitVec 3) : (descSize desc).getLsbD 0 = desc.getLsbD 0 := by
  simp [descSize]

/-- Test 1 of Check answers a transaction of 2 or 8 bytes (spec/46_host_interface.md R314). -/
theorem execRsvdSize_eq {desc : BitVec 3} (h : desc.getLsbD 0 = true) (addr wdata : Word) (s : State) :
    execRsvdSize desc addr wdata s = .next (s.respond .errSize 0#32) := by
  rw [execRsvdSize, check_reserved_size ((descSize_getLsbD_zero desc).trans h)]

/-- Settles O38: by Check's first test. -/
theorem reservedSizesAreRefused : Obligations.ReservedSizesAreRefused :=
  fun s _ addr wdata h => execRsvdSize_eq h addr wdata s

end Sys2Proof.Machine
end

section
/-! The bit codec, padding and word packing (spec/41_bitcodec_padding_packing.md): the values of bit groups, toBits and
fromBits as inverses, the padded message in closed form at bit and at byte level, and the obligations of that family. -/

namespace Sys2Proof.Machine

/-! ### The value of a bit group (R161, R166) -/

/-- The digits' value by Horner's rule: one digit more doubles the value and adds the digit. -/
theorem bitsValue_succ (bits : List Bool) (n start : Nat) :
    bitsValue bits (n + 1) start = 2 * bitsValue bits n start + (bits.getD (start + n) false).toNat := by
  have hdouble : (List.range n).map (fun i => if bits.getD (start + i) false then 2 ^ (n + 1 - 1 - i) else 0) =
      (List.range n).map (fun i => 2 * if bits.getD (start + i) false then 2 ^ (n - 1 - i) else 0) := by
    refine List.map_congr_left fun i hi => ?_
    have hexp : n + 1 - 1 - i = n - 1 - i + 1 := by have := List.mem_range.mp hi; omega
    rw [hexp, Nat.pow_succ', mul_ite, mul_zero]
  rw [bitsValue, List.range_succ, List.map_append, List.sum_append, hdouble, List.sum_map_mul_left, ← bitsValue,
    List.map_singleton, List.sum_singleton, Nat.add_sub_cancel, Nat.sub_self, pow_zero]
  cases bits.getD (start + n) false <;> rfl

theorem bitsValue_lt (bits : List Bool) (n start : Nat) : bitsValue bits n start < 2 ^ n := by
  induction n with
  | zero => simp [bitsValue]
  | succ n ih =>
    have hbit := Bool.toNat_le (bits.getD (start + n) false)
    rw [bitsValue_succ, Nat.pow_succ]
    omega

theorem toNat_ofNat_bitsValue (bits : List Bool) (n start : Nat) :
    (BitVec.ofNat n (bitsValue bits n start)).toNat = bitsValue bits n start := by
  rw [BitVec.toNat_ofNat, Nat.mod_eq_of_lt (bitsValue_lt bits n start)]

/-- Binary digit `i` of the value, counted from the least significant, is the group's bit `i` from the end. -/
theorem testBit_bitsValue (bits : List Bool) {n start i : Nat} (hi : i < n) :
    (bitsValue bits n start).testBit i = bits.getD (start + (n - 1 - i)) false := by
  induction n generalizing i with
  | zero => omega
  | succ n ih =>
    rw [bitsValue_succ]
    cases i with
    | zero =>
      rw [Nat.testBit_zero, Nat.mul_add_mod, Nat.sub_zero, Nat.add_sub_cancel]
      cases bits.getD (start + n) false <;> rfl
    | succ i =>
      have hhalf : (2 * bitsValue bits n start + (bits.getD (start + n) false).toNat) / 2 = bitsValue bits n start := by
        have hbit := Bool.toNat_lt (bits.getD (start + n) false)
        omega
      have hindex : n - 1 - i = n + 1 - 1 - (i + 1) := by omega
      rw [Nat.testBit_succ, hhalf, ih (by omega), hindex]

/-- A bit group read as a word has its first bit as the most significant one. -/
theorem getMsbD_ofNat_bitsValue (bits : List Bool) {n start i : Nat} (hi : i < n) :
    (BitVec.ofNat n (bitsValue bits n start)).getMsbD i = bits.getD (start + i) false := by
  have hback : n - 1 - (n - 1 - i) = i := by omega
  rw [BitVec.getMsbD_eq_getLsbD, BitVec.getLsbD_ofNat, testBit_bitsValue bits (by omega), hback]
  simp [hi, show n - 1 - i < n by omega]

/-- Two bit groups in a row read as one word are the two groups' words appended. -/
theorem ofNat_bitsValue_append (bits : List Bool) (m n start : Nat) :
    BitVec.ofNat (m + n) (bitsValue bits (m + n) start) =
      BitVec.ofNat m (bitsValue bits m start) ++ BitVec.ofNat n (bitsValue bits n (start + m)) := by
  refine BitVec.eq_of_getMsbD_eq fun i hi => ?_
  rw [BitVec.getMsbD_append, getMsbD_ofNat_bitsValue bits hi]
  split
  · next hsecond =>
    have hsum : start + m + (i - m) = start + i := by omega
    rw [getMsbD_ofNat_bitsValue bits (by omega), hsum]
  · next hfirst => rw [getMsbD_ofNat_bitsValue bits (by omega)]

/-- The value as a sum of positional weights. -/
theorem bitsValue_eq_sum (bits : List Bool) (n start : Nat) :
    bitsValue bits n start =
      ∑ i ∈ Finset.range n, if bits[start + i]? = some true then 2 ^ (n - 1 - i) else 0 := by
  have hbit (i : Nat) : bits.getD i false = true ↔ bits[i]? = some true := by
    rw [List.getD_eq_getElem?_getD]
    cases bits[i]? <;> simp
  simp only [bitsValue, hbit]
  rfl

/-! ### toBits and fromBits (R160, R161) -/

@[simp] theorem toBits_nil : toBits [] = [] := rfl

theorem toBits_cons (b : Byte) (bytes : List Byte) :
    toBits (b :: bytes) = (List.range 8).map (fun i => b.getLsbD (7 - i)) ++ toBits bytes :=
  List.flatMap_cons

theorem toBits_append (xs ys : List Byte) : toBits (xs ++ ys) = toBits xs ++ toBits ys :=
  List.flatMap_append

@[simp] theorem length_toBits (bytes : List Byte) : (toBits bytes).length = 8 * bytes.length := by
  induction bytes with
  | nil => rfl
  | cons b bytes ih =>
    rw [toBits_cons, List.length_append, ih, List.length_cons, List.length_map, List.length_range]
    omega

/-- Bit 8k + i is the digit of weight 2^(7 - i) of byte k (R160). -/
theorem getElem?_toBits (bytes : List Byte) (k : Nat) {i : Nat} (hi : i < 8) :
    (toBits bytes)[8 * k + i]? = (bytes[k]?).map (fun b => b.getLsbD (7 - i)) := by
  induction bytes generalizing k with
  | nil => simp
  | cons b bytes ih =>
    rw [toBits_cons]
    cases k with
    | zero => rw [List.getElem?_append_left (by simp; omega)]; simp [hi]
    | succ k =>
      have hskip : 8 * (k + 1) + i - 8 = 8 * k + i := by omega
      rw [List.getElem?_append_right (by simp; omega), List.length_map, List.length_range, hskip, ih,
        List.getElem?_cons_succ]

@[simp] theorem length_fromBits (bits : List Bool) : (fromBits bits).length = bits.length / 8 := by
  simp [fromBits]

@[simp] theorem length_packWords (bits : List Bool) : (packWords bits).length = bits.length / 32 := by
  simp [packWords]

theorem getElem?_fromBits {bits : List Bool} {k : Nat} (hk : k < bits.length / 8) :
    (fromBits bits)[k]? = some (BitVec.ofNat 8 (bitsValue bits 8 (8 * k))) := by
  simp [fromBits, hk]

theorem getElem?_packWords {bits : List Bool} {w : Nat} (hw : w < bits.length / 32) :
    (packWords bits)[w]? = some (BitVec.ofNat 32 (bitsValue bits 32 (32 * w))) := by
  simp [packWords, hw]

/-- The round trip (R169 (a)). -/
@[simp] theorem fromBits_toBits (bytes : List Byte) : fromBits (toBits bytes) = bytes := by
  have hlen : (fromBits (toBits bytes)).length = bytes.length := by simp
  refine List.ext_getElem? fun k => ?_
  by_cases hk : k < bytes.length
  · rw [getElem?_fromBits (by simpa using hk), List.getElem?_eq_getElem hk, Option.some_inj]
    refine BitVec.eq_of_getMsbD_eq fun i hi => ?_
    rw [getMsbD_ofNat_bitsValue _ hi, List.getD_eq_getElem?_getD, getElem?_toBits bytes k hi,
      List.getElem?_eq_getElem hk, BitVec.getMsbD_eq_getLsbD]
    simp [hi]
  · rw [List.getElem?_eq_none (by omega), List.getElem?_eq_none (by omega)]

/-- Settles O19: bit positions by induction on the bytes, weights by the value of a bit group. -/
theorem bitCodecAndPackerPlaceBitsMsbFirst : Obligations.BitCodecAndPackerPlaceBitsMsbFirst := by
  refine ⟨fun bytes => ⟨length_toBits bytes, fromBits_toBits bytes, fun k i _ hi => getElem?_toBits bytes k (by omega)⟩,
    fun bits _ => ⟨length_fromBits bits, fun k hk => ?_⟩, fun bits _ => ⟨length_packWords bits, fun w hw => ?_⟩⟩
  · rw [getElem?_fromBits hk, Option.map_some, toNat_ofNat_bitsValue, bitsValue_eq_sum]
  · rw [getElem?_packWords hw, Option.map_some, toNat_ofNat_bitsValue, bitsValue_eq_sum]

/-! ### The padded message at bit level (R162 to R164) -/

/-- Z, the number of zero bits that step 3 of pad appends, as the spec's length equation gives it (R164). -/
def zeroCount (len : Nat) : Nat := 512 * chunkCount len - (8 * len + 65)

theorem padded_length_eq (len : Nat) : 8 * len + 1 + zeroCount len + 64 = 512 * chunkCount len := by
  unfold zeroCount chunkCount
  omega

theorem zeroCount_lt (len : Nat) : zeroCount len < 512 := by
  unfold zeroCount chunkCount
  omega

/-- The loop appends as many zeros as the next length congruent to 448 needs. -/
theorem zeroFill_eq_append {fuel z : Nat} {bits : List Bool} (hfuel : z ≤ fuel) (hz : z < 512)
    (hlen : (bits.length + z + 64) % 512 = 0) : zeroFill fuel bits = bits ++ List.replicate z false := by
  induction fuel generalizing z bits with
  | zero => simp [zeroFill, Nat.le_zero.mp hfuel]
  | succ fuel ih =>
    cases z with
    | zero => simp [zeroFill, show (bits.length + 64) % 512 = 0 from hlen]
    | succ z =>
      have hgoes : ¬(bits.length + 64) % 512 = 0 := by omega
      have hnext : ((bits ++ [false]).length + z + 64) % 512 = 0 := by
        rw [List.length_append, List.length_singleton]
        omega
      rw [zeroFill, if_neg hgoes, ih (by omega) (by omega) hnext, List.append_assoc, List.replicate_succ]
      rfl

@[simp] theorem length_lengthField (bitLength : Nat) : (lengthField bitLength).length = 64 := by
  rw [lengthField, List.length_map, List.length_range]

/-- pad in closed form (R163). -/
theorem padBits_eq (bytes : List Byte) :
    padBits bytes = toBits bytes ++ [true] ++ List.replicate (zeroCount bytes.length) false ++
      lengthField (8 * bytes.length) := by
  have hlen := padded_length_eq bytes.length
  have hz := zeroCount_lt bytes.length
  have hwhole : ((toBits bytes ++ [true]).length + zeroCount bytes.length + 64) % 512 = 0 := by
    rw [List.length_append, length_toBits, List.length_singleton]
    omega
  rw [padBits, zeroFill_eq_append hz.le hz hwhole]

@[simp] theorem length_padBits (bytes : List Byte) : (padBits bytes).length = 512 * chunkCount bytes.length := by
  rw [padBits_eq, ← padded_length_eq]
  simp only [List.length_append, length_toBits, List.length_singleton, List.length_replicate, length_lengthField]

/-- Z is the residue of R163. -/
theorem zeroCount_eq_emod (len : Nat) : (zeroCount len : Int) = (447 - 8 * (len : Int)) % 512 := by
  have hlen := padded_length_eq len
  have hz := zeroCount_lt len
  omega

/-- Settles O20: the loop's closed form, with the length equation of R164. -/
theorem paddingFillsWholeChunks : Obligations.PaddingFillsWholeChunks := by
  intro bytes _
  have hlen := padded_length_eq bytes.length
  exact ⟨⟨zeroCount bytes.length, zeroCount_eq_emod bytes.length, by omega, padBits_eq bytes⟩, length_padBits bytes⟩

/-! ### The padded message at byte level (R165) -/

/-- be_64 of the bit length: the eight bytes of the length field. -/
def lengthBytes (bitLength : Nat) : List Byte :=
  (List.range 8).map (fun m => BitVec.ofNat 8 (bitLength >>> (8 * (7 - m))))

/-- The padded message as bytes: the message, 0x80, zero bytes and the length field. -/
def padBytes (bytes : List Byte) : List Byte :=
  bytes ++ 0x80#8 :: (List.replicate (64 * chunkCount bytes.length - (bytes.length + 9)) 0x00#8 ++
    lengthBytes (8 * bytes.length))

theorem toBits_replicate_zero (n : Nat) : toBits (List.replicate n 0x00#8) = List.replicate (8 * n) false := by
  induction n with
  | zero => rfl
  | succ n ih =>
    have hbyte : (List.range 8).map (fun i => (0x00#8).getLsbD (7 - i)) = List.replicate 8 false := by decide
    rw [List.replicate_succ, toBits_cons, ih, hbyte, List.replicate_append_replicate]
    congr 1
    omega

theorem toBits_lengthBytes (x : Nat) : toBits (lengthBytes x) = lengthField x := by
  refine List.ext_getElem? fun j => ?_
  obtain ⟨k, i, hi, rfl⟩ : ∃ k i, i < 8 ∧ j = 8 * k + i := ⟨j / 8, j % 8, by omega, by omega⟩
  rw [getElem?_toBits _ k hi, lengthBytes, lengthField]
  by_cases hk : k < 8
  · have hin : 8 * k + i < 64 := by omega
    have hpos : 8 * (7 - k) + (7 - i) = 63 - (8 * k + i) := by omega
    have hdigit : (BitVec.ofNat 8 (x >>> (8 * (7 - k)))).getLsbD (7 - i) = x.testBit (63 - (8 * k + i)) := by
      rw [BitVec.getLsbD_ofNat, Nat.testBit_shiftRight, hpos, decide_eq_true (by omega), Bool.true_and]
    simp only [List.getElem?_map, List.getElem?_range hk, List.getElem?_range hin, Option.map_some, hdigit]
  · have hout : ¬8 * k + i < 64 := by omega
    simp [hk, hout]

/-- The bit-level padded message is the bits of the byte-level one (R169 (c), (d)). -/
theorem padBits_eq_toBits (bytes : List Byte) : padBits bytes = toBits (padBytes bytes) := by
  have hmark : (List.range 8).map (fun i => (0x80#8).getLsbD (7 - i)) = true :: List.replicate 7 false := by decide
  have hz : zeroCount bytes.length = 7 + 8 * (64 * chunkCount bytes.length - (bytes.length + 9)) := by
    have hlen := padded_length_eq bytes.length
    omega
  rw [padBits_eq, padBytes, toBits_append, toBits_cons, toBits_append, hmark, toBits_replicate_zero,
    toBits_lengthBytes, hz, ← List.replicate_append_replicate]
  simp only [List.append_assoc, List.cons_append, List.nil_append]

theorem length_padBytes (bytes : List Byte) : (padBytes bytes).length = 64 * chunkCount bytes.length := by
  have hbits := length_padBits bytes
  rw [padBits_eq_toBits, length_toBits] at hbits
  omega

/-- P(k) is byte k of the byte-level padded message: one case per branch of R165. -/
theorem padByte_eq_getElem?_padBytes {bytes : List Byte} {msg : Nat → Option Byte}
    (hmsg : ∀ k, k < bytes.length → msg k = bytes[k]?) {k : Nat} (hk : k < 64 * chunkCount bytes.length) :
    padByte msg bytes.length (chunkCount bytes.length) k = (padBytes bytes)[k]? := by
  have hroom : bytes.length + 9 ≤ 64 * chunkCount bytes.length := by
    have hlen := padded_length_eq bytes.length
    omega
  unfold padByte
  split
  · next hmessage => rw [hmsg k hmessage, padBytes, List.getElem?_append_left hmessage]
  · next hpast =>
    obtain ⟨i, rfl⟩ := Nat.exists_eq_add_of_le (Nat.not_lt.mp hpast)
    rw [padBytes, List.getElem?_append_right (by omega), Nat.add_sub_cancel_left]
    cases i with
    | zero => simp
    | succ i =>
      rw [if_neg (by omega), List.getElem?_cons_succ]
      split
      · next hzero => rw [List.getElem?_append_left (by simp; omega), List.getElem?_replicate_of_lt (by omega)]
      · next hfield =>
        have hindex : i - (64 * chunkCount bytes.length - (bytes.length + 9)) =
            bytes.length + (i + 1) + 8 - 64 * chunkCount bytes.length := by omega
        rw [List.getElem?_append_right (by simp; omega), List.length_replicate, hindex, lengthBytes,
          List.getElem?_map, List.getElem?_range (by omega), Option.map_some]

/-- Settles O21: the bytes of the padded bits are the byte-level padded message. -/
theorem paddedByteIsByteOfPad : Obligations.PaddedByteIsByteOfPad := by
  intro bytes msg _ hmsg k hk
  have hin : k < (padBytes bytes).length := by rwa [length_padBytes]
  refine ⟨(padBytes bytes)[k], ?_, ?_⟩
  · rw [padByte_eq_getElem?_padBytes hmsg hk, List.getElem?_eq_getElem hin]
  · rw [padBits_eq_toBits, fromBits_toBits, List.getElem?_eq_getElem hin]

/-! ### Packing (R166, R167) -/

/-- A group of 32 bits packs to its four bytes joined. -/
theorem ofNat_bitsValue_eq_joinBytes (bits : List Bool) (start : Nat) :
    BitVec.ofNat 32 (bitsValue bits 32 start) =
      joinBytes (BitVec.ofNat 8 (bitsValue bits 8 start)) (BitVec.ofNat 8 (bitsValue bits 8 (start + 8)))
        (BitVec.ofNat 8 (bitsValue bits 8 (start + 16))) (BitVec.ofNat 8 (bitsValue bits 8 (start + 24))) := by
  rw [joinBytes, ← ofNat_bitsValue_append bits 8 8, ← ofNat_bitsValue_append bits 16 8,
    ← ofNat_bitsValue_append bits 24 8]

/-- Word w of the packed bits joins bytes 4w to 4w + 3 of the same bits. -/
theorem getElem?_packWords_eq_joinBytes {bits : List Bool} {w : Nat} {b0 b1 b2 b3 : Byte}
    (h0 : (fromBits bits)[4 * w]? = some b0) (h1 : (fromBits bits)[4 * w + 1]? = some b1)
    (h2 : (fromBits bits)[4 * w + 2]? = some b2) (h3 : (fromBits bits)[4 * w + 3]? = some b3) :
    (packWords bits)[w]? = some (joinBytes b0 b1 b2 b3) := by
  have hlast : 4 * w + 3 < bits.length / 8 := by
    rw [← length_fromBits]
    exact (List.getElem?_eq_some_iff.mp h3).1
  have hstart : 32 * w = 8 * (4 * w) := by omega
  rw [getElem?_fromBits (by omega), Option.some_inj] at h0 h1 h2 h3
  rw [getElem?_packWords (by omega), ofNat_bitsValue_eq_joinBytes, hstart, ← h0, ← h1, ← h2, ← h3]
  simp only [Nat.mul_add]

/-- Settles O22: LOAD's four bytes are bytes of the padded message (O21), and their word is its packed word. -/
theorem chunkWordIsWordOfPackedPad : Obligations.ChunkWordIsWordOfPackedPad := by
  intro bytes msg hlen hmsg b j hb hj
  have hbyte := paddedByteIsByteOfPad bytes msg hlen hmsg
  have hfirst : 4 * (16 * b + j) = 64 * b + 4 * j := by omega
  obtain ⟨b0, hp0, h0⟩ := hbyte (64 * b + 4 * j) (by omega)
  obtain ⟨b1, hp1, h1⟩ := hbyte (64 * b + 4 * j + 1) (by omega)
  obtain ⟨b2, hp2, h2⟩ := hbyte (64 * b + 4 * j + 2) (by omega)
  obtain ⟨b3, hp3, h3⟩ := hbyte (64 * b + 4 * j + 3) (by omega)
  refine ⟨joinBytes b0 b1 b2 b3, by simp [chunkWord, hp0, hp1, hp2, hp3], ?_⟩
  rw [← hfirst] at h0 h1 h2 h3
  exact getElem?_packWords_eq_joinBytes h0 h1 h2 h3

end Sys2Proof.Machine
end

section
/-! The message schedule (spec/42_message_schedule.md): the bit forms of the round functions, the recurrence of the schedule,
the register file W over the rounds of a chunk, and the obligations of that family. -/

namespace Sys2Proof.Machine

/-! ### The word functions bit by bit (R190, R191, R197, R221, R224, R230) -/

/-- Settles O15: the formulas are the definitions, and the listed values are computed. -/
theorem smallSigmasAreTheirFormulas : Obligations.SmallSigmasAreTheirFormulas :=
  ⟨fun _ => rfl, fun _ => rfl, by decide⟩

/-- Of the two bits that Ch exclusive-ors, the one that `e` does not choose is 0 (R221). -/
theorem getLsbD_ch (e f g : Word) (i : Nat) :
    (ch e f g).getLsbD i = if e.getLsbD i then f.getLsbD i else g.getLsbD i := by
  have hbit : (ch e f g).getLsbD i = ((e.getLsbD i && f.getLsbD i) ^^ ((~~~e).getLsbD i && g.getLsbD i)) := by
    simp only [ch, BitVec.getLsbD_xor, BitVec.getLsbD_and]
  rw [hbit, BitVec.getLsbD_not]
  by_cases hi : i < 32
  · cases e.getLsbD i <;> simp [hi]
  · simp [hi, BitVec.getLsbD_of_ge _ i (Nat.not_lt.mp hi)]

/-- The exclusive-or of the three pairwise conjunctions is the majority: none of them holds, one, or all three (R224). -/
theorem getLsbD_maj (a b c : Word) (i : Nat) :
    (maj a b c).getLsbD i =
      ((a.getLsbD i && b.getLsbD i) || (a.getLsbD i && c.getLsbD i) || (b.getLsbD i && c.getLsbD i)) := by
  have hpairs : ∀ p q r : Bool, ((p && q) ^^ (p && r) ^^ (q && r)) = (p && q || p && r || q && r) := by decide
  simp only [maj, BitVec.getLsbD_xor, BitVec.getLsbD_and, hpairs]

/-- The common form of the four sigmas: two rotations and a third word. -/
theorem getLsbD_rotr_xor_rotr_xor (x y : Word) {m n i : Nat} (hm : m ≤ 32) (hn : n ≤ 32) (hi : i < 32) :
    (rotr x m ^^^ rotr x n ^^^ y).getLsbD i =
      ((x.getLsbD ((i + m) % 32) ^^ x.getLsbD ((i + n) % 32)) ^^ y.getLsbD i) := by
  rw [BitVec.getLsbD_xor, BitVec.getLsbD_xor, getLsbD_rotr x hm hi, getLsbD_rotr x hn hi]

/-- The shift runs out past bit `last` (R197). -/
theorem getLsbD_shr_eq_ite (x : Word) {n last : Nat} (hlast : last + n = 31) (i : Nat) :
    (shr x n).getLsbD i = if i ≤ last then x.getLsbD (i + n) else false := by
  rw [getLsbD_shr]
  split
  · rfl
  · exact BitVec.getLsbD_of_ge x (i + n) (by omega)

/-- Settles O17: the bits that Ch and Maj select, and for the sigmas the bits that each rotation and shift moves. -/
theorem roundLogicActsBitwise : Obligations.RoundLogicActsBitwise := by
  refine ⟨getLsbD_ch, getLsbD_maj, fun x i hi => ⟨?_, ?_, ?_, ?_⟩⟩
  · rw [smallSigma0, getLsbD_rotr_xor_rotr_xor x _ (by decide) (by decide) hi, getLsbD_shr_eq_ite x (last := 28) rfl]
  · rw [smallSigma1, getLsbD_rotr_xor_rotr_xor x _ (by decide) (by decide) hi, getLsbD_shr_eq_ite x (last := 21) rfl]
  · rw [bigSigma1, getLsbD_rotr_xor_rotr_xor x _ (by decide) (by decide) hi, getLsbD_rotr x (by decide) hi]
  · rw [bigSigma0, getLsbD_rotr_xor_rotr_xor x _ (by decide) (by decide) hi, getLsbD_rotr x (by decide) hi]

/-! ### The schedule and its recurrence (R192, R195) -/

/-- What the recurrence of R192 makes word `t` of, from the words before it. -/
def recurrenceWord (w : List Word) (t : Nat) : Word :=
  w.getD (t - 16) 0#32 + smallSigma0 (w.getD (t - 15) 0#32) + w.getD (t - 7) 0#32 + smallSigma1 (w.getD (t - 2) 0#32)

/-- Word `t` depends only on strictly earlier words (R195). -/
theorem recurrenceWord_congr {w w' : List Word} {t : Nat} (ht : 16 ≤ t) (h : ∀ i, i < t → w[i]? = w'[i]?) :
    recurrenceWord w t = recurrenceWord w' t := by
  simp only [recurrenceWord, List.getD_eq_getElem?_getD, h (t - 16) (by omega), h (t - 15) (by omega),
    h (t - 7) (by omega), h (t - 2) (by omega)]

/-- A pass appends the word that the recurrence makes. -/
theorem scheduleExtend_eq {w : List Word} (h : 16 ≤ w.length) :
    scheduleExtend w = w ++ [recurrenceWord w w.length] := by
  have h15 : w.length - 16 + 1 = w.length - 15 := by omega
  have h7 : w.length - 16 + 9 = w.length - 7 := by omega
  have h2 : w.length - 16 + 14 = w.length - 2 := by omega
  simp only [scheduleExtend, recurrenceWord, h15, h7, h2]

theorem length_iterate_scheduleExtend (w : List Word) (n : Nat) :
    (scheduleExtend^[n] w).length = w.length + n := by
  induction n with
  | zero => rfl
  | succ n ih => rw [Function.iterate_succ_apply', scheduleExtend, List.length_append, ih]; rfl

/-- The passes leave the words made before them as they are. -/
theorem isPrefix_iterate_scheduleExtend (w : List Word) (n : Nat) : w <+: scheduleExtend^[n] w := by
  induction n with
  | zero => exact List.prefix_rfl
  | succ n ih =>
    rw [Function.iterate_succ_apply']
    exact ih.trans (List.prefix_append _ _)

/-- The first passes alone make the first words of the schedule. -/
theorem iterate_scheduleExtend_isPrefix_schedule (chunk : List Word) {n : Nat} (hn : n ≤ 48) :
    scheduleExtend^[n] chunk <+: schedule chunk := by
  have hsplit : schedule chunk = scheduleExtend^[48 - n] (scheduleExtend^[n] chunk) := by
    rw [← Function.iterate_add_apply, Nat.sub_add_cancel hn, schedule]
  exact hsplit ▸ isPrefix_iterate_scheduleExtend _ _

/-- A word of the schedule, read after any number of passes that has made it. -/
theorem getElem?_schedule_eq (chunk : List Word) {n i : Nat} (hn : n ≤ 48) (hi : i < chunk.length + n) :
    (schedule chunk)[i]? = (scheduleExtend^[n] chunk)[i]? := by
  have hlt : i < (scheduleExtend^[n] chunk).length := by rwa [length_iterate_scheduleExtend]
  rw [List.getElem?_eq_getElem hlt]
  exact List.prefix_iff_getElem?.mp (iterate_scheduleExtend_isPrefix_schedule chunk hn) i hlt

section Chunk

variable {chunk : List Word} (hlen : chunk.length = 16)
include hlen

theorem length_schedule : (schedule chunk).length = 64 := by
  rw [schedule, length_iterate_scheduleExtend, hlen]

/-- The first 16 words of the schedule are the chunk (R192). -/
theorem getElem?_schedule_chunk {i : Nat} (hi : i < 16) : (schedule chunk)[i]? = chunk[i]? :=
  getElem?_schedule_eq chunk (n := 0) (by omega) (by omega)

/-- Each later word of the schedule is what the recurrence makes of it (R192). -/
theorem getElem?_schedule_recurrence {t : Nat} (h16 : 16 ≤ t) (h64 : t < 64) :
    (schedule chunk)[t]? = some (recurrenceWord (schedule chunk) t) := by
  obtain ⟨n, rfl⟩ := Nat.exists_eq_add_of_le h16
  have hmade : (scheduleExtend^[n] chunk).length = 16 + n := by rw [length_iterate_scheduleExtend, hlen]
  have hbefore : ∀ i, i < 16 + n → (scheduleExtend^[n] chunk)[i]? = (schedule chunk)[i]? := fun i hi =>
    (getElem?_schedule_eq chunk (by omega) (by omega)).symm
  calc (schedule chunk)[16 + n]?
      = (scheduleExtend (scheduleExtend^[n] chunk))[16 + n]? := by
        rw [getElem?_schedule_eq chunk (n := n + 1) (by omega) (by omega), Function.iterate_succ_apply']
    _ = some (recurrenceWord (scheduleExtend^[n] chunk) (16 + n)) := by
        rw [scheduleExtend_eq (by omega), hmade, ← hmade, List.getElem?_concat_length]
    _ = some (recurrenceWord (schedule chunk) (16 + n)) := by rw [recurrenceWord_congr h16 hbefore]

end Chunk

/-- Both small sigmas of zero are zero (R190, R191). -/
theorem recurrenceWord_replicate_zero (m t : Nat) : recurrenceWord (List.replicate m 0#32) t = 0#32 := by
  have hget (i : Nat) : (List.replicate m 0#32).getD i 0#32 = 0#32 := by
    rw [List.getD_eq_getElem?_getD, List.getElem?_replicate]
    split <;> rfl
  simp only [recurrenceWord, hget]
  decide

theorem iterate_scheduleExtend_replicate_zero (n : Nat) :
    scheduleExtend^[n] (List.replicate 16 0#32) = List.replicate (16 + n) 0#32 := by
  induction n with
  | zero => rfl
  | succ n ih =>
    rw [Function.iterate_succ_apply', ih, scheduleExtend_eq (by simp), recurrenceWord_replicate_zero,
      ← List.replicate_succ', Nat.add_assoc]

/-- Settles O23: the words that each pass appends, and two passes for the listed words. -/
theorem scheduleFollowsTheRecurrence : Obligations.ScheduleFollowsTheRecurrence := by
  have htwo (chunk : List Word) (hlen : chunk.length = 16) (i : Nat) (hi : i < 18) :
      (schedule chunk)[i]? = (scheduleExtend^[2] chunk)[i]? :=
    getElem?_schedule_eq chunk (by decide) (by omega)
  refine ⟨fun chunk hlen => ⟨length_schedule hlen, fun i hi => getElem?_schedule_chunk hlen hi, fun t h16 h63 =>
    getElem?_schedule_recurrence hlen h16 (by omega)⟩, iterate_scheduleExtend_replicate_zero 48, ?_, ?_, ?_, ?_⟩
  all_goals
    rw [htwo _ rfl _ (by decide)]
    decide

/-! ### The register file over the rounds of a chunk (R193, R194) -/

theorem wordAt_eq_getD (w : Vector Word 64) (i : BitVec 6) : wordAt w i = w.toList.getD i.toNat 0#32 := by
  rw [wordAt, List.getD_eq_getElem _ _ (by simpa using i.isLt), Vector.getElem_toList]

/-- Past the loaded words the expander computes the recurrence: no tap index wraps around (R193). -/
theorem expandWord_eq_recurrenceWord {w : Vector Word 64} {t : BitVec 6} (ht : 16 ≤ t.toNat) :
    expandWord w t = recurrenceWord w.toList t.toNat := by
  have h16 : (t - 16#6).toNat = t.toNat - 16 := by bv_omega
  have h15 : (t - 15#6).toNat = t.toNat - 15 := by bv_omega
  have h7 : (t - 7#6).toNat = t.toNat - 7 := by bv_omega
  have h2 : (t - 2#6).toNat = t.toNat - 2 := by bv_omega
  rw [expandWord, if_neg (Nat.not_lt.mpr ht)]
  simp only [wordAt_eq_getD, h16, h15, h7, h2, recurrenceWord]

/-- W after the first `n` rounds of a chunk. -/
def expandRounds (w : Vector Word 64) : Nat → Vector Word 64
  | 0 => w
  | n + 1 => expandFile (expandRounds w n) (BitVec.ofNat 6 n)

/-- The schedule of the words that LOAD put into the register file. -/
abbrev fileSchedule (w : Vector Word 64) : List Word := schedule (w.toList.take 16)

theorem length_take_file (w : Vector Word 64) : (w.toList.take 16).length = 16 := by simp

/-- Where the file holds the loaded words and every word before round `t`'s, the round's word is the schedule's. -/
theorem expandWord_eq_of_agree {w v : Vector Word 64} {t : BitVec 6}
    (h : ∀ i, i < max 16 t.toNat → v.toList[i]? = (fileSchedule w)[i]?) :
    (fileSchedule w)[t.toNat]? = some (expandWord v t) := by
  by_cases ht : t.toNat < 16
  · rw [← h _ (by omega), expandWord, if_pos ht, wordAt, List.getElem?_eq_getElem (by simpa using t.isLt),
      Vector.getElem_toList]
  · have h16 : 16 ≤ t.toNat := Nat.not_lt.mp ht
    rw [getElem?_schedule_recurrence (length_take_file w) h16 t.isLt, expandWord_eq_recurrenceWord h16,
      recurrenceWord_congr h16 fun i hi => h i (by omega)]

/-- After `n` rounds W holds the schedule's words below `n`, and the 16 that LOAD wrote. -/
theorem getElem?_expandRounds (w : Vector Word 64) {n : Nat} (hn : n ≤ 64) :
    ∀ i, i < max 16 n → (expandRounds w n).toList[i]? = (fileSchedule w)[i]? := by
  induction n with
  | zero =>
    intro i hi
    rw [getElem?_schedule_chunk (length_take_file w) (by omega), List.getElem?_take_of_lt (by omega), expandRounds]
  | succ n ih =>
    intro i hi
    have ih := ih (by omega)
    have ht : (BitVec.ofNat 6 n).toNat = n := Nat.mod_eq_of_lt (by omega)
    rw [expandRounds, expandFile]
    split
    · next hlow => exact ih i (by omega)
    · next hhigh =>
      rw [Vector.toList_set, List.getElem?_set]
      split
      · next hni =>
        rw [← hni, expandWord_eq_of_agree (v := expandRounds w n) (by rwa [ht]), if_pos (by simp; omega)]
      · next hni => exact ih i (by omega)

/-- The word that round `n` consumes is word `n` of the schedule (R194). -/
theorem expandWord_expandRounds (w : Vector Word 64) {n : Nat} (hn : n < 64) :
    expandWord (expandRounds w n) (BitVec.ofNat 6 n) = (fileSchedule w).getD n 0#32 := by
  have ht : (BitVec.ofNat 6 n).toNat = n := Nat.mod_eq_of_lt hn
  have hword := expandWord_eq_of_agree (w := w) (v := expandRounds w n) (t := BitVec.ofNat 6 n) (by
    rw [ht]; exact getElem?_expandRounds w hn.le)
  rw [List.getD_eq_getElem?_getD, ← ht, hword, Option.getD_some, ht]

/-- After all 64 rounds W is the schedule (R194). -/
theorem toList_expandRounds (w : Vector Word 64) : (expandRounds w 64).toList = fileSchedule w := by
  have hlen : (fileSchedule w).length = 64 := length_schedule (length_take_file w)
  refine List.ext_getElem? fun i => ?_
  by_cases hi : i < 64
  · exact getElem?_expandRounds w (Nat.le_refl 64) i (by omega)
  · rw [List.getElem?_eq_none (by simp; omega), List.getElem?_eq_none (by omega)]

/-! ### The ROUND steps of a chunk (spec/45_sequencer.md R283) -/

theorem run_succ_of_next {M : Host.Core} {s t : M.State} (h : M.step s = .next t) (k : Nat) :
    M.run (k + 1) s = M.run k t := by
  rw [Host.Core.run, h]

/-- A run goes on from where its first steps end. -/
theorem run_add_of_next {M : Host.Core} {m : Nat} {s t : M.State} (h : M.run m s = .next t) (k : Nat) :
    M.run (m + k) s = M.run k t := by
  induction m generalizing s with
  | zero => rw [Nat.zero_add, show s = t from Host.Outcome.next.inj h]
  | succ m ih =>
    rw [Nat.add_right_comm]
    rw [Host.Core.run] at h ⊢
    split at h
    · exact ih h
    · cases h
    · cases h

/-- The state after the first `n` of the 64 rounds of a chunk: t stops at 63, and the last round goes on to FOLD. -/
def State.afterRounds (s : State) (n : Nat) : State :=
  { s with
    w := expandRounds s.w n, vars := runRounds (fileSchedule s.w) n s.vars, t := BitVec.ofNat 6 (min n 63)
    phase := if n < 64 then s.phase else phaseFold }

theorem State.rounded_afterRounds (s : State) {n : Nat} (hn : n < 64) :
    (s.afterRounds n).rounded = s.afterRounds (n + 1) := by
  have ht : (BitVec.ofNat 6 n).toNat = n := Nat.mod_eq_of_lt hn
  have hround : BitVec.ofNat 6 (min n 63) = BitVec.ofNat 6 n := by rw [min_eq_left (by omega)]
  have hcount : (if n < 63 then BitVec.ofNat 6 n + 1#6 else BitVec.ofNat 6 n) = BitVec.ofNat 6 (min (n + 1) 63) := by
    split
    · rw [min_eq_left (by omega), BitVec.ofNat_add]
    · rw [min_eq_right (by omega), show n = 63 by omega]
  simp only [State.rounded, State.afterRounds, hround, ht, hcount, expandWord_expandRounds s.w hn, expandRounds,
    runRounds, if_pos hn, Nat.add_lt_add_iff_right (k := 1) (m := 63)]

/-- With no event pending, a step in ROUND is one round. -/
theorem step_of_phaseRound {s : State} (hf : s.fault = none) (hnil : s.inputs = []) (hp : s.phase = phaseRound) :
    step s = .next s.rounded := by
  rw [(coreStepRunsTheMicroOpOfPhase s hf).1 hnil, hp]
  rfl

/-- With no event pending, the core steps from ROUND with t = 0 are the rounds, one each. -/
theorem run_afterRounds {s : State} (hf : s.fault = none) (hnil : s.inputs = []) (hp : s.phase = phaseRound)
    (ht : s.t = 0#6) {n : Nat} (hn : n ≤ 64) : Host.Core.run Sys2Proof.core n s = .next (s.afterRounds n) := by
  induction n with
  | zero =>
    have hzero : s.afterRounds 0 = s := by
      rw [State.afterRounds, expandRounds, runRounds, Nat.zero_min, ← ht]
      rfl
    exact congrArg _ hzero.symm
  | succ n ih =>
    have hphase : (s.afterRounds n).phase = phaseRound := (if_pos hn).trans hp
    have hstep : step (s.afterRounds n) = .next (s.afterRounds (n + 1)) := by
      rw [step_of_phaseRound (s := s.afterRounds n) hf hnil hphase, s.rounded_afterRounds hn]
    exact (run_add_of_next (ih (by omega)) 1).trans (run_succ_of_next hstep 0)

/-- Settles O25: round by round, W holding the schedule's words made so far, of which round t consumes word t. -/
theorem sixtyFourRoundsExpandAndCompress : Obligations.SixtyFourRoundsExpandAndCompress :=
  fun s hf hnil hp ht =>
    ⟨s.afterRounds 64, run_afterRounds hf hnil hp ht (Nat.le_refl 64), toList_expandRounds s.w, rfl⟩

end Sys2Proof.Machine
end

section
/-! The compression-round engine (spec/43_compression.md): Ch and Maj at the ends of their range, the values that the spec lists,
and the core steps from LOAD over ROUND to FOLD that compress one chunk. -/

namespace Sys2Proof.Machine

/-! ### The round functions (R220 to R225) -/

/-- A zero `e` chooses every bit from `g` (R221). -/
@[simp] theorem ch_zero_left (f g : Word) : ch 0#32 f g = g := by
  refine BitVec.eq_of_getLsbD_eq fun i _ => ?_
  rw [getLsbD_ch, BitVec.getLsbD_zero, if_neg Bool.false_ne_true]

/-- An `e` of all ones chooses every bit from `f` (R221). -/
@[simp] theorem ch_allOnes_left (f g : Word) : ch 0xFFFF_FFFF#32 f g = f := by
  refine BitVec.eq_of_getLsbD_eq fun i hi => ?_
  have hone : (0xFFFF_FFFF#32).getLsbD i = true := (BitVec.getLsbD_allOnes (v := 32)).trans (decide_eq_true hi)
  rw [getLsbD_ch, if_pos hone]

/-- Two equal operands are the majority (R224). -/
@[simp] theorem maj_self_left (x y : Word) : maj x x y = x := by
  refine BitVec.eq_of_getLsbD_eq fun i _ => ?_
  rw [getLsbD_maj, Bool.and_self, Bool.or_assoc, Bool.or_self]
  exact sup_inf_self

/-- Settles O16: the formulas are the definitions, Ch and Maj are what they select, and the listed values are computed. -/
theorem roundFunctionsAreTheirFormulas : Obligations.RoundFunctionsAreTheirFormulas := by
  refine ⟨fun _ => rfl, ?_, ?_, ?_, ?_, fun _ _ _ => rfl, fun f g => ⟨ch_zero_left f g, ch_allOnes_left f g⟩, ?_,
    fun _ => rfl, ?_, ?_, ?_, ?_, fun _ _ _ => rfl, fun x y => ⟨maj_self_left x y, maj_self_left 0#32 y⟩, ?_⟩
  all_goals decide

/-- Settles O24: the sums and the update are the definitions, and the listed values are computed. -/
theorem roundUpdatesTheWorkingVariables : Obligations.RoundUpdatesTheWorkingVariables := by
  refine ⟨fun _ _ _ => ⟨rfl, rfl, rfl⟩, fun a b c hmaj hsigma => ?_, ?_, ⟨?_, ?_⟩, ?_, ?_, ?_⟩
  · rw [temp2, hmaj, hsigma]
    decide
  all_goals decide

/-! ### The LOAD and FOLD steps of a chunk (spec/45_sequencer.md R282, R284) -/

/-- Where the chunk's words can be read, LOAD puts them into W[0..15]. -/
theorem exists_loadedFile {s : State} {chunk : List Word} (hlen : chunk.length = 16)
    (hchunk : ∀ j, j < 16 → chunkWord s.msgCell s.len s.nblk.toNat s.blkcnt.toNat j = chunk[j]?) :
    ∃ w, s.loadedFile = some w ∧ w.toList.take 16 = chunk := by
  obtain ⟨w, hw⟩ : ∃ w, s.loadedFile = some w := by
    refine Option.ne_none_iff_exists'.mp fun hnone => ?_
    obtain ⟨j, -, hj, hmissing⟩ := loadWords_eq_none.mp hnone
    rw [hchunk j (by omega), List.getElem?_eq_none_iff] at hmissing
    omega
  obtain ⟨hloaded, -⟩ := loadedFile_some hw
  refine ⟨w, hw, List.ext_getElem (by rw [length_take_file, hlen]) fun j h16 hj => ?_⟩
  have hword := hloaded j (by omega) (by omega)
  rw [hchunk j (by omega), List.getElem?_eq_getElem hj, Option.some_inj] at hword
  rw [List.getElem_take, Vector.getElem_toList, hword]

/-- With no event pending, a step in LOAD whose words can be read makes LOAD's writes. -/
theorem step_of_phaseLoad {s : State} {w : Vector Word 64} (hf : s.fault = none) (hnil : s.inputs = [])
    (hp : s.phase = phaseLoad) (hw : s.loadedFile = some w) : step s = .next (s.loaded w) := by
  rw [(coreStepRunsTheMicroOpOfPhase s hf).1 hnil, hp]
  exact congrArg (loadOutcome s) hw

/-- With no event pending, a step in FOLD makes FOLD's writes. -/
theorem step_of_phaseFold {s : State} (hf : s.fault = none) (hnil : s.inputs = []) (hp : s.phase = phaseFold) :
    step s = .next s.folded := by
  rw [(coreStepRunsTheMicroOpOfPhase s hf).1 hnil, hp]
  rfl

/-! ### The core steps of one chunk (R227, R229) -/

/-- What LOAD, the first `n` rounds and FOLD write, `w` being the register file that LOAD leaves. -/
theorem State.folded_afterRounds_loaded (s : State) (w : Vector Word 64) (n : Nat) :
    ((s.loaded w).afterRounds n).folded =
      { s with
        h := foldH s.h (runRounds (fileSchedule w) n (varsOfH s.h)), vars := runRounds (fileSchedule w) n (varsOfH s.h)
        w := expandRounds w n, t := 0#6, blkcnt := s.blkcnt + 1#32
        phase := if s.blkcnt + 1#32 = s.nblk then phaseDone else phaseLoad } := rfl

/-- With no event pending, the step after the last round is FOLD. -/
theorem step_afterRounds {s : State} (hf : s.fault = none) (hnil : s.inputs = []) {n : Nat} (hn : 64 ≤ n) :
    step (s.afterRounds n) = .next (s.afterRounds n).folded :=
  step_of_phaseFold (s := s.afterRounds n) hf hnil (if_neg (Nat.not_lt.mpr hn))

section Chunk

variable {s : State} {w : Vector Word 64} (hf : s.fault = none) (hnil : s.inputs = []) (hp : s.phase = phaseLoad)
  (hw : s.loadedFile = some w)
include hf hnil hp hw

/-- The core steps from LOAD up to FOLD: LOAD, then one round each. -/
theorem run_load_afterRounds {n : Nat} (hn : n ≤ 64) :
    Host.Core.run Sys2Proof.core (n + 1) s = .next ((s.loaded w).afterRounds n) := by
  have hload : Sys2Proof.core.step s = .next (s.loaded w) := step_of_phaseLoad hf hnil hp hw
  rw [run_succ_of_next hload]
  exact run_afterRounds (s := s.loaded w) hf hnil rfl rfl hn

/-- The core steps of one chunk: LOAD, 64 rounds, FOLD. -/
theorem run_chunk : Host.Core.run Sys2Proof.core 66 s = .next ((s.loaded w).afterRounds 64).folded := by
  have hfold := step_afterRounds (s := s.loaded w) hf hnil (Nat.le_refl 64)
  exact (run_add_of_next (run_load_afterRounds hf hnil hp hw (Nat.le_refl 64)) 1).trans (run_succ_of_next hfold 0)

end Chunk

/-- Settles O26: LOAD starts the 64 rounds on the chunk's schedule and on H, and FOLD adds their result to H. -/
theorem chunkStepsCompress : Obligations.ChunkStepsCompress := by
  intro s chunk hf hnil hp hlen hchunk
  obtain ⟨w, hw, rfl⟩ := exists_loadedFile hlen hchunk
  refine ⟨_, run_chunk hf hnil hp hw, ?_⟩
  rw [State.folded_afterRounds_loaded, compress]
  exact ⟨rfl, rfl⟩

end Sys2Proof.Machine
end

section
/-! The digest output formatter (spec/44_digest_formatter.md): the arithmetic of the digest bytes and characters, one rule per
access width and direction for an address of a window, and what the HREG, HEX and BITS windows show. -/

namespace Sys2Proof.Machine

/-! ### Bytes and characters as numbers (R260 to R263) -/

theorem toNat_digestByte (h : Vector Word 8) (d : Fin 32) :
    (digestByte h d).toNat = (h[d.val / 4]'(by omega)).toNat / 2 ^ (24 - 8 * (d.val % 4)) % 256 := by
  rw [digestByte, BitVec.toNat_setWidth, BitVec.toNat_ushiftRight, Nat.shiftRight_eq_div_pow]

theorem toNat_digestNibble (h : Vector Word 8) (n : Fin 64) :
    (digestNibble h n).toNat =
      let byte := (digestByte h ⟨n.val / 2, by omega⟩).toNat
      if n.val % 2 = 0 then byte / 16 else byte % 16 := by
  have hbyte := (digestByte h ⟨n.val / 2, by omega⟩).isLt
  simp only [digestNibble]
  split
  · rw [BitVec.toNat_setWidth, BitVec.toNat_ushiftRight, Nat.shiftRight_eq_div_pow]
    omega
  · exact BitVec.toNat_setWidth ..

theorem toNat_hexChar : ∀ v : BitVec 4,
    (hexChar v).toNat = if v.toNat ≤ 9 then 0x30 + v.toNat else 0x61 + (v.toNat - 10) := by
  decide

theorem toNat_bitChar (b : Bool) : (bitChar b).toNat = 0x30 + b.toNat := by
  cases b <;> rfl

theorem toNat_bitDigit (h : Vector Word 8) (n : Fin 256) :
    (bitDigit h n).toNat = 0x30 + (digestByte h ⟨n.val / 8, by omega⟩).toNat / 2 ^ (7 - n.val % 8) % 2 := by
  rw [bitDigit, toNat_bitChar, ← BitVec.testBit_toNat, Nat.toNat_testBit]

/-- Settles O43: the byte, the code of the nibble and the code of the bit, each as a number. -/
theorem digestCharactersFollowTheDigestBytes : Obligations.DigestCharactersFollowTheDigestBytes := by
  refine fun h => ⟨toNat_digestByte h, fun n => ?_, toNat_bitDigit h⟩
  rw [hexDigit, toNat_hexChar, toNat_digestNibble]

/-! ### Accesses of a window (spec/46_host_interface.md R310 to R314) -/

section
variable {s : State} {addr : Word} {v : Window} (hregion : regionOf s.msgBytes addr = some (.window v))
include hregion

/-- RD8 of a window address answers its byte view (R311). -/
theorem execRd8_window {b : Byte} (hview : viewByte s v addr.toNat = .ok b) :
    execRd8 addr s = .next (s.respond .okay (b.setWidth 32)) := by
  have hcheck : check .read 0#2 addr 0#32 s = .ok (.window v) := by simp [check, hregion, Region.isReg]
  simp only [execRd8, hcheck, hview]
  rfl

/-- RD32 of an aligned window address answers its word view (R310). -/
theorem execRd32_window (h4 : addr.toNat % 4 = 0) {w : Word} (hview : viewWord s v addr.toNat = .ok w) :
    execRd32 addr s = .next (s.respond .okay w) := by
  have hcheck : check .read 2#2 addr 0#32 s = .ok (.window v) := by simp [check, h4, hregion]
  simp only [execRd32, hcheck, hview]
  rfl

/-- Test 5a refuses every write to a window of the digest (R314). -/
theorem check_write_digest {size : BitVec 2} (wdata : Word) (hv : v ≠ .msg)
    (hsize : size = 0#2 ∨ size = 2#2 ∧ addr.toNat % 4 = 0) :
    check .write size addr wdata s = .error .errReadonly := by
  have hrefusal : writeRefusal (.window v) wdata s.busy = some .errReadonly := by
    cases v with
    | msg => exact absurd rfl hv
    | hreg | hex | bits => rfl
  rcases hsize with rfl | ⟨rfl, h4⟩
  · simp [check, hregion, Region.isReg, hrefusal]
  · simp [check, hregion, h4, hrefusal]

theorem execWr8_digest (wdata : Word) (hv : v ≠ .msg) : execWr8 addr wdata s = .next (s.respond .errReadonly 0#32) := by
  simp only [execWr8, check_write_digest hregion wdata hv (.inl rfl)]

theorem execWr32_digest (wdata : Word) (hv : v ≠ .msg) (h4 : addr.toNat % 4 = 0) :
    execWr32 addr wdata s = .next (s.respond .errReadonly 0#32) := by
  simp only [execWr32, check_write_digest hregion wdata hv (.inr ⟨rfl, h4⟩)]

end

/-! ### A window that shows the host a byte string -/

/-- In the state `s` the `n` addresses from `base` on are the window `v`, which is not MSG, and show the bytes `f`. -/
structure ShowsBytes (s : State) (v : Window) (base : Nat) {n : Nat} (f : Fin n → Byte) : Prop where
  notMsg : v ≠ .msg
  aligned : base % 4 = 0
  below : base + n ≤ msgBase
  region : ∀ addr : Word, base ≤ addr.toNat → addr.toNat < base + n → regionOf s.msgBytes addr = some (.window v)
  view : ∀ i : Fin n, viewByte s v (base + i) = .ok (f i)

section
variable {s : State} {v : Window} {base n : Nat} {f : Fin n → Byte} (hs : ShowsBytes s v base f)
include hs

theorem ShowsBytes.toNat_addr {i : Nat} (hi : i < n) : (BitVec.ofNat 32 (base + i)).toNat = base + i := by
  have hbelow := hs.below
  unfold msgBase at hbelow
  rw [BitVec.toNat_ofNat, Nat.mod_eq_of_lt (by omega)]

theorem ShowsBytes.regionOf_addr {i : Nat} (hi : i < n) :
    regionOf s.msgBytes (BitVec.ofNat 32 (base + i)) = some (.window v) := by
  have haddr := hs.toNat_addr hi
  exact hs.region _ (by omega) (by omega)

theorem ShowsBytes.addr_aligned {q : Nat} (hq : 4 * q < n) : (BitVec.ofNat 32 (base + 4 * q)).toNat % 4 = 0 := by
  have hbase := hs.aligned
  rw [hs.toNat_addr hq]
  omega

theorem ShowsBytes.rd8 (i : Fin n) :
    execRd8 (BitVec.ofNat 32 (base + i)) s = .next (s.respond .okay ((f i).setWidth 32)) :=
  execRd8_window (hs.regionOf_addr i.isLt) (by rw [hs.toNat_addr i.isLt, hs.view])

theorem ShowsBytes.rd32 {q : Nat} (hq : 4 * q + 3 < n) :
    execRd32 (BitVec.ofNat 32 (base + 4 * q)) s =
      .next (s.respond .okay (joinBytes (f ⟨4 * q, by omega⟩) (f ⟨4 * q + 1, by omega⟩) (f ⟨4 * q + 2, by omega⟩)
        (f ⟨4 * q + 3, hq⟩))) := by
  have h0 : 4 * q < n := by omega
  refine execRd32_window (hs.regionOf_addr h0) (hs.addr_aligned h0) ?_
  rw [hs.toNat_addr h0, viewWord, hs.view ⟨4 * q, h0⟩, Nat.add_assoc, hs.view ⟨4 * q + 1, by omega⟩, Nat.add_assoc,
    hs.view ⟨4 * q + 2, by omega⟩, Nat.add_assoc, hs.view ⟨4 * q + 3, hq⟩]
  rfl

theorem ShowsBytes.wr8 {i : Nat} (hi : i < n) (wdata : Word) :
    execWr8 (BitVec.ofNat 32 (base + i)) wdata s = .next (s.respond .errReadonly 0#32) :=
  execWr8_digest (hs.regionOf_addr hi) wdata hs.notMsg

theorem ShowsBytes.wr32 {q : Nat} (hq : 4 * q < n) (wdata : Word) :
    execWr32 (BitVec.ofNat 32 (base + 4 * q)) wdata s = .next (s.respond .errReadonly 0#32) :=
  execWr32_digest (hs.regionOf_addr hq) wdata hs.notMsg (hs.addr_aligned hq)

end

/-! ### The three windows of the digest (R264 to R266) -/

/-- The HREG window shows the digest bytes (R264). -/
theorem hreg_showsBytes (s : State) : ShowsBytes s .hreg hregBase (digestByte s.h) where
  notMsg := by decide
  aligned := by decide
  below := by decide
  region addr hlo hhi := by
    refine regionOf_window.mpr ⟨by unfold hregBase at hlo; omega, ?_⟩
    rw [windowAt, if_pos ⟨hlo, hhi⟩]
  view i := by rw [viewByte.eq_def, Nat.add_sub_cancel_left, Fin.ofNat_val_eq_self]

/-- The HEX window shows the hexadecimal characters (R265). -/
theorem hex_showsBytes (s : State) : ShowsBytes s .hex hexBase (hexDigit s.h) where
  notMsg := by decide
  aligned := by decide
  below := by decide
  region addr hlo hhi := by
    have hhreg : ¬(hregBase ≤ addr.toNat ∧ addr.toNat < hregBase + 32) := by unfold hregBase hexBase at *; omega
    refine regionOf_window.mpr ⟨by unfold hexBase at hlo; omega, ?_⟩
    rw [windowAt, if_neg hhreg, if_pos ⟨hlo, hhi⟩]
  view i := by rw [viewByte.eq_def, Nat.add_sub_cancel_left, Fin.ofNat_val_eq_self]

/-- The BITS window shows the bit characters (R266). -/
theorem bits_showsBytes (s : State) : ShowsBytes s .bits bitsBase (bitDigit s.h) where
  notMsg := by decide
  aligned := by decide
  below := by decide
  region addr hlo hhi := by
    have hhreg : ¬(hregBase ≤ addr.toNat ∧ addr.toNat < hregBase + 32) := by unfold hregBase bitsBase at *; omega
    have hhex : ¬(hexBase ≤ addr.toNat ∧ addr.toNat < hexBase + 64) := by unfold hexBase bitsBase at *; omega
    refine regionOf_window.mpr ⟨by unfold bitsBase at hlo; omega, ?_⟩
    rw [windowAt, if_neg hhreg, if_neg hhex, if_pos ⟨hlo, hhi⟩]
  view i := by rw [viewByte.eq_def, Nat.add_sub_cancel_left, Fin.ofNat_val_eq_self]

/-! ### The HREG window (R264) -/

/-- The digest byte d is lane d mod 4 of H[d div 4] (R260, spec/20_memory.md R84). -/
theorem digestByte_eq_laneByte (h : Vector Word 8) (d : Fin 32) :
    digestByte h d = laneByte (h[d.val / 4]'(by omega)) (d.val % 4) := by
  rw [digestByte, laneByte, Nat.mod_mod]

theorem digestByte_four_mul_add (h : Vector Word 8) (i : Fin 8) {j : Nat} (hj : j < 4) :
    digestByte h ⟨4 * i.val + j, by omega⟩ = laneByte h[i] j := by
  have hdiv : (4 * i.val + j) / 4 = i.val := by omega
  have hmod : (4 * i.val + j) % 4 = j := by omega
  simp only [digestByte_eq_laneByte, hdiv, hmod]
  rfl

/-- Four digest bytes from an index 4i on are the word H[i], its most significant byte first (R264). -/
theorem joinBytes_digestByte (h : Vector Word 8) (i : Fin 8) :
    joinBytes (digestByte h ⟨4 * i.val, by omega⟩) (digestByte h ⟨4 * i.val + 1, by omega⟩)
      (digestByte h ⟨4 * i.val + 2, by omega⟩) (digestByte h ⟨4 * i.val + 3, by omega⟩) = h[i] := by
  rw [← joinBytes_laneByte h[i], ← digestByte_four_mul_add h i (by decide : 0 < 4),
    ← digestByte_four_mul_add h i (by decide : 1 < 4), ← digestByte_four_mul_add h i (by decide : 2 < 4),
    ← digestByte_four_mul_add h i (by decide : 3 < 4)]
  rfl

/-- Settles O42: a digest byte is a lane of its H word, and the four lanes join to the word. -/
theorem hregWindowShowsTheDigest : Obligations.HregWindowShowsTheDigest := by
  intro s
  have hs := hreg_showsBytes s
  refine ⟨fun d => ?_, fun i => ?_, fun d wdata => hs.wr8 d.isLt wdata, fun i wdata => hs.wr32 (by omega) wdata⟩
  · rw [← setWidth_laneByte _ (Nat.mod_lt _ (by decide)), ← digestByte_eq_laneByte]
    exact hs.rd8 d
  · rw [← joinBytes_digestByte s.h i]
    exact hs.rd32 (by omega)

/-! ### The text windows (R265, R266) -/

/-- Four bytes, each moved to its lane (spec/20_memory.md R84). -/
theorem joinBytes_eq_or (b0 b1 b2 b3 : Byte) :
    joinBytes b0 b1 b2 b3 =
      (b0.setWidth 32 <<< 24) ||| (b1.setWidth 32 <<< 16) ||| (b2.setWidth 32 <<< 8) ||| b3.setWidth 32 := by
  rw [← BitVec.setWidth_eq (joinBytes b0 b1 b2 b3), joinBytes]
  simp only [BitVec.setWidth_append_eq_shiftLeft_setWidth_or, BitVec.shiftLeft_or_distrib, ← BitVec.shiftLeft_add]

/-- Settles O44: each window shows its characters, and a word read joins four of them. -/
theorem textWindowsShowTheCharacters : Obligations.TextWindowsShowTheCharacters := by
  intro s
  have hhex := hex_showsBytes s
  have hbits := bits_showsBytes s
  refine ⟨hhex.rd8, fun q => ?_, hbits.rd8, fun q => ?_, fun n wdata hn => hhex.wr8 hn wdata,
    fun q wdata hq => hhex.wr32 (by omega) wdata, fun n wdata hn => hbits.wr8 hn wdata,
    fun q wdata hq => hbits.wr32 (by omega) wdata⟩
  · rw [← joinBytes_eq_or]
    exact hhex.rd32 (by omega)
  · rw [← joinBytes_eq_or]
    exact hbits.rd32 (by omega)

end Sys2Proof.Machine
end

section
/-! The sequencer (spec/45_sequencer.md): the single micro-operations, how each kind of event moves PHASE, the phases in which
the core rests, and what a START keeps of the state it finds. -/

namespace Sys2Proof.Machine

/-! ### The micro-operations LOAD, ROUND and FOLD (R282 to R284) -/

/-- Settles O32: LOAD writes `loadedFile` where it is defined, and elsewhere a message byte of the chunk is missing. -/
theorem loadReadsTheChunk : Obligations.LoadReadsTheChunk := by
  intro s
  rcases execLoad_cases s with ⟨w, hw, hexec⟩ | ⟨hnone, hexec⟩
  · obtain ⟨hwords, hkept⟩ := loadedFile_some hw
    refine ⟨fun _ => ⟨s.loaded w, hexec, fun j => hwords j j.isLt, fun j => hkept j j.isLt, rfl⟩, ?_⟩
    rintro ⟨k, hlow, hhigh, hcell⟩
    have hmissing : s.loadedFile = none := loadedFile_eq_none.mpr ⟨k, hlow, by omega, by omega, hcell⟩
    simp [hw] at hmissing
  · refine ⟨fun hwritten => ?_, fun _ => hexec⟩
    obtain ⟨k, hlow, hhigh, hlen, hcell⟩ := loadedFile_eq_none.mp hnone
    exact absurd hcell (hwritten k hlow (by omega))

/-- Settles O34: the round's word is `expandWord` of the old file, which `expandFile` writes from round 16 on. -/
theorem roundStepExpandsAndCompresses : Obligations.RoundStepExpandsAndCompresses := by
  intro s
  refine ⟨s.rounded, expandWord s.w s.t, rfl, fun hlow => ?_, fun hhigh => ?_, rfl, rfl⟩
  · exact ⟨if_pos hlow, if_pos hlow⟩
  · have hpast : ¬s.t.toNat < 16 := Nat.not_lt.mpr hhigh
    have hfile : s.rounded.w = s.w.set s.t.toNat (expandWord s.w s.t) s.t.isLt := if_neg hpast
    refine ⟨if_neg hpast, ?_, fun j hj => ?_⟩
    · simp only [hfile, Vector.getElem_set_self]
    · simp only [hfile, Fin.getElem_fin, Vector.getElem_set_ne _ _ (Ne.symm hj)]

/-- Settles O35: each word of `foldH`, and the example of R284. -/
theorem foldStepAddsTheWorkingVariables : Obligations.FoldStepAddsTheWorkingVariables :=
  ⟨fun s => ⟨s.folded, rfl, rfl, rfl, rfl, rfl, rfl, rfl, rfl, rfl, rfl⟩, by decide⟩

/-! ### Moves of PHASE (R291) -/

/-- The PHASE that a core step leaves where it answers a next state (R281 to R286). -/
def State.nextPhase (s : State) : BitVec 3 :=
  if s.phase = phaseLoad then phaseRound
  else if s.phase = phaseRound then (if s.t = 63#6 then phaseFold else phaseRound)
  else if s.phase = phaseFold then (if s.blkcnt + 1#32 = s.nblk then phaseDone else phaseLoad)
  else s.phase

theorem nextPhase_legal {s : State} (h : s.phase.toNat ≤ 5) : s.nextPhase.toNat ≤ 5 := by
  unfold State.nextPhase
  split_ifs
  iterate 5 · decide
  exact h

theorem phase_of_exec_microOp {s t : State} (h : exec s.microOp s = .next t) : t.phase = s.nextPhase := by
  rcases microOp_cases s with
    ⟨hp, hm⟩ | ⟨hp, hm⟩ | ⟨hp, hm⟩ | ⟨hp, hm⟩ | ⟨hp, hm⟩ | ⟨hp, hm⟩ | ⟨-, hm⟩ <;> rw [hm] at h
  · cases h; simp [State.nextPhase, hp]
  · rcases execLoad_cases s with ⟨w, -, hw⟩ | ⟨-, hw⟩ <;> cases hw.symm.trans h
    simp [State.nextPhase, hp]
  · cases h
    have hlast : s.t = 63#6 ↔ ¬s.t.toNat < 63 := by bv_omega
    by_cases hmore : s.t.toNat < 63 <;> simp [State.nextPhase, hp, hlast, hmore]
  · cases h; simp [State.nextPhase, hp]
  · cases h; simp [State.nextPhase, hp]
  · cases h; simp [State.nextPhase, hp]
  · cases h

/-- Of the host's operations only START and CLEAR move PHASE. -/
theorem Effect.phase_cases {s t : State} {p : Instr} (he : Effect s p t) (hp : p.interface ≠ .phase) :
    t.phase = s.phase ∨ (∃ ie, p = .start ie ∧ (t.phase = phaseLoad ∨ t.phase = phaseError)) ∨
      ∃ ie, p = .clear ie ∧ t.phase = phaseIdle := by
  cases he with
  | reject ie => exact .inr (.inl ⟨ie, rfl, .inr rfl⟩)
  | accept ie => exact .inr (.inl ⟨ie, rfl, .inl rfl⟩)
  | clear ie => exact .inr (.inr ⟨ie, rfl, rfl⟩)
  | load | round | fold => exact absurd rfl hp
  | _ => exact .inl rfl

/-- A request moves PHASE by a START while not BUSY, or by a CLEAR (R291, spec/46_host_interface.md R321, R322). -/
theorem phase_of_exec_request {s t : State} {q : Request} (h : exec (requestInstr q) s = .next t) :
    t.phase = s.phase ∨
      (∃ ie, requestInstr q = .start ie ∧ s.busy = false ∧ (t.phase = phaseLoad ∨ t.phase = phaseError)) ∨
      ∃ ie, requestInstr q = .clear ie ∧ t.phase = phaseIdle := by
  have heffect := exec_effect h
  rw [performed_requestInstr] at heffect
  rcases heffect.phase_cases (requestInstr_interface q) with hsame | ⟨ie, hq, hphase⟩ | hclear
  · exact .inl hsame
  · cases hb : s.busy with
    | false => exact .inr (.inl ⟨ie, hq, rfl, hphase⟩)
    | true =>
      have hrefused : exec (.start ie) s = .next (s.respond .errBusy 0#32) := by
        rw [exec, execStart_eq, hb, if_pos rfl]
      rw [hq] at h
      cases hrefused.symm.trans h
      exact .inl rfl
  · exact .inr (.inr hclear)

/-- Settles O13: by the kind of the event, on the state with the event taken off. -/
theorem phaseMovesOnlyAsTheSequencerAllows : Obligations.PhaseMovesOnlyAsTheSequencerAllows := by
  intro s t h
  rcases step_cases (step_next_unfaulted h) with ⟨hev, he⟩ | ⟨q, hev, he⟩ | ⟨hev, he⟩ <;> rw [hev]
  · exact phase_of_exec_microOp (s := s.pop) (he.symm.trans h)
  · exact phase_of_exec_request (s := s.pop) (he.symm.trans h)
  · cases he.symm.trans h
    rfl

theorem microOp_of_reserved {s : State} (h : 6 ≤ s.phase.toNat) : s.microOp = .rsvdPhase s.phase := by
  rcases microOp_cases s with ⟨hp, -⟩ | ⟨hp, -⟩ | ⟨hp, -⟩ | ⟨hp, -⟩ | ⟨hp, -⟩ | ⟨hp, -⟩ | ⟨-, hm⟩
  iterate 6 · simp [hp] at h
  exact hm

/-- Settles O36: by the micro-operation of PHASE, and by the moves of PHASE (O13), none of which ends in 6 or 7. -/
theorem reservedPhaseFaultsAndIsNeverWritten : Obligations.ReservedPhaseFaultsAndIsNeverWritten := by
  refine ⟨fun _ _ => rfl, fun s hf hev h6 => ?_, fun s t hlegal h => ?_⟩
  · rw [step_of_clock hf hev, microOp_of_reserved h6]
    rfl
  · have hmove := phaseMovesOnlyAsTheSequencerAllows s t h
    cases hev : s.nextEvent <;> simp only [hev] at hmove
    case clock => exact hmove ▸ nextPhase_legal hlegal
    case request q =>
      rcases hmove with hp | ⟨ie, -, -, hp | hp⟩ | ⟨ie, -, hp⟩ <;> rw [hp]
      · exact hlegal
      all_goals decide
    case reset => rw [hmove]; decide

/-! ### The resting phases (R281, R285, R286) -/

section
variable {s : State} (hrest : s.phase = phaseIdle ∨ s.phase = phaseDone ∨ s.phase = phaseError)
include hrest

theorem not_busy_of_resting : s.busy = false := by
  rcases hrest with hp | hp | hp <;> simp [State.busy, hp]

theorem exec_microOp_of_resting : exec s.microOp s = .next s := by
  rcases hrest with hp | hp | hp <;> rw [State.microOp, hp] <;> rfl

/-- With no event pending, the core rests for any number of core steps. -/
theorem run_of_resting (hf : s.fault = none) (hnil : s.inputs = []) (n : Nat) :
    Host.Core.run Sys2Proof.core n s = .next s := by
  have hstep : Sys2Proof.core.step s = .next s :=
    ((coreStepRunsTheMicroOpOfPhase s hf).1 hnil).trans (exec_microOp_of_resting hrest)
  induction n with
  | zero => rfl
  | succ n ih => rw [run_succ_of_next hstep, ih]

theorem nextPhase_of_resting : s.nextPhase = s.phase := by
  rcases hrest with hp | hp | hp <;> simp [State.nextPhase, hp]

end

/-- Settles O31: a core step rests, and of the moves of PHASE (O13) those that leave a resting phase are the host's and
reset's. -/
theorem restingPhasesHold : Obligations.RestingPhasesHold := by
  refine ⟨fun s => ⟨rfl, rfl, rfl⟩, fun s n hf hnil hrest => run_of_resting hrest hf hnil n,
    fun s t hrest h hleft => ?_⟩
  have hmove := phaseMovesOnlyAsTheSequencerAllows s t h
  cases hev : s.nextEvent <;> simp only [hev] at hmove
  case clock => exact absurd (hmove.trans (nextPhase_of_resting hrest)) hleft
  case request q =>
    rcases hmove with hsame | ⟨ie, hq, -, -⟩ | ⟨ie, hq, -⟩
    · exact absurd hsame hleft
    · exact .inr ⟨q, ie, rfl, .inl hq⟩
    · exact .inr ⟨q, ie, rfl, .inr hq⟩
  case reset => exact .inl rfl

/-! ### START overwrites the job (R290) -/

/-- Every branch of START writes the job, IE, ERRCODE and PHASE, so that with the response only LEN, MSG, the capacity, the
fault mark and the pending events are left of the old state. -/
theorem start_respond_congr {s s' : State} (ie : Bool) (r : Resp) (v : Word) (hhi : s.lenHi = s'.lenHi)
    (hlo : s.lenLo = s'.lenLo) (hmsg : s.msg = s'.msg) (hcap : s.msgBytes = s'.msgBytes) (hf : s.fault = s'.fault)
    (hinputs : s.inputs = s'.inputs) : (s.start ie).respond r v = (s'.start ie).respond r v := by
  have hlen : s.len = s'.len := by rw [State.len, State.len, hhi, hlo]
  have hparams : s.toParameters = s'.toParameters := congrArg Parameters.mk hcap
  rw [State.start, State.start, hlen, hcap]
  split_ifs
  all_goals
    simp only [State.enterError, State.seedJob, State.clearJob, State.respond, hhi, hlo, hmsg, hparams, hf, hinputs]

/-- Settles O30: a START that is not refused performs R321's writes. -/
theorem startForgetsEarlierJobs : Obligations.StartForgetsEarlierJobs := by
  intro s s' ie hb hb' hhi hlo hmsg hcap hf hinputs
  refine ⟨_, execStart_of_not_busy ie hb, ?_⟩
  rw [start_respond_congr ie _ _ hhi hlo hmsg hcap hf hinputs]
  exact execStart_of_not_busy ie hb'

end Sys2Proof.Machine
end

section
/-! The job (spec/45_sequencer.md R289): the core steps that fold its chunks one after another, and the same core steps with
host transactions between them. -/

namespace Sys2Proof.Machine

/-! ### The chunks of a message (R280) -/

theorem length_packWords_padBits (bytes : List Byte) :
    (packWords (padBits bytes)).length = 16 * chunkCount bytes.length := by
  rw [length_packWords, length_padBits]
  omega

/-- Chunk `b` of the packed padded message. -/
abbrev messageChunk (bytes : List Byte) (b : Nat) : List Word := ((packWords (padBits bytes)).drop (16 * b)).take 16

theorem length_messageChunk {bytes : List Byte} {b : Nat} (hb : b < chunkCount bytes.length) :
    (messageChunk bytes b).length = 16 := by
  rw [List.length_take, List.length_drop, length_packWords_padBits]
  omega

theorem getElem?_messageChunk (bytes : List Byte) (b : Nat) {j : Nat} (hj : j < 16) :
    (messageChunk bytes b)[j]? = (packWords (padBits bytes))[16 * b + j]? := by
  rw [List.getElem?_take_of_lt hj, List.getElem?_drop]

theorem sumBytes_eq (bytes : List Byte) :
    sumBytes bytes = serialise (chainChunks (packWords (padBits bytes)) (chunkCount bytes.length)) := by
  rw [sumBytes, sumWords, length_packWords_padBits, Nat.mul_div_cancel_left _ (by decide)]

/-! ### The core steps of a job -/

/-- A job on `bytes` between two chunks, with no event pending: `b` chunks are folded. -/
structure State.ChunksFolded (s : State) (bytes : List Byte) (b : Nat) : Prop where
  unfaulted : s.fault = none
  quiet : s.inputs = []
  short : bytes.length ≤ 2 ^ 31
  chunks : s.nblk.toNat = chunkCount bytes.length
  length : s.len = bytes.length
  message : s.HoldsMessage bytes
  counted : s.blkcnt.toNat = b
  digest : s.h = chainChunks (packWords (padBits bytes)) b
  phase : s.phase = if b = chunkCount bytes.length then phaseDone else phaseLoad

/-- What a job is does not depend on the pending events. -/
theorem State.JobStarted.withInputs {s : State} {bytes : List Byte} (hs : s.JobStarted bytes) (inputs : List Event) :
    State.JobStarted { s with inputs := inputs } bytes :=
  ⟨hs.unfaulted, hs.loading, hs.firstChunk, hs.firstRound, hs.seeded, hs.chunks, hs.length, hs.capacity, hs.fits,
    hs.message⟩

/-- A job starts with no chunk folded. -/
theorem State.JobStarted.chunksFolded {s : State} {bytes : List Byte} (hs : s.JobStarted bytes) (hnil : s.inputs = []) :
    s.ChunksFolded bytes 0 where
  unfaulted := hs.unfaulted
  quiet := hnil
  short := hs.fits.trans hs.capacity.2.2
  chunks := hs.chunks
  length := hs.length
  message := hs.message
  counted := by rw [hs.firstChunk]; rfl
  digest := hs.seeded
  phase := by rw [if_neg (chunkCount_pos _).ne, hs.loading]

section
variable {s : State} {bytes : List Byte} {b : Nat} (hs : s.ChunksFolded bytes b) (hb : b < chunkCount bytes.length)
include hs hb

theorem State.ChunksFolded.loading : s.phase = phaseLoad := by
  rw [hs.phase, if_neg hb.ne]

/-- LOAD reads the words of chunk `b` (O22). -/
theorem State.ChunksFolded.chunkWord_eq (j : Nat) (hj : j < 16) :
    chunkWord s.msgCell s.len s.nblk.toNat s.blkcnt.toNat j = (messageChunk bytes b)[j]? := by
  have hshort : bytes.length < 2 ^ 61 := by have := hs.short; omega
  obtain ⟨v, hv, hword⟩ := chunkWordIsWordOfPackedPad bytes s.msgCell hshort hs.message b j hb hj
  rw [hs.length, hs.chunks, hs.counted, hv, getElem?_messageChunk bytes b hj, hword]

/-- The 66 core steps of a chunk fold it. -/
theorem State.ChunksFolded.run_chunk :
    ∃ u, Host.Core.run Sys2Proof.core 66 s = .next u ∧ u.ChunksFolded bytes (b + 1) := by
  obtain ⟨u, hrun, hh, hu⟩ := chunkStepsCompress s (messageChunk bytes b) hs.unfaulted hs.quiet (hs.loading hb)
    (length_messageChunk hb) (hs.chunkWord_eq hb)
  have hcells : u.msgCell = s.msgCell := by rw [hu]; rfl
  have hnblk : u.nblk = s.nblk := by rw [hu]
  have hblkcnt : u.blkcnt = s.blkcnt + 1#32 := by rw [hu]
  have hcounted : (s.blkcnt + 1#32).toNat = b + 1 := by
    have hbound := chunkCount_le hs.short
    have hb' := hs.counted
    bv_omega
  have hlast : s.blkcnt + 1#32 = s.nblk ↔ b + 1 = chunkCount bytes.length := by
    rw [← BitVec.toNat_inj, hcounted, hs.chunks]
  refine ⟨u, hrun, ?_, ?_, hs.short, ?_, ?_, ?_, ?_, ?_, ?_⟩
  · rw [hu]; exact hs.unfaulted
  · rw [hu]; exact hs.quiet
  · rw [hnblk, hs.chunks]
  · rw [hu]; exact hs.length
  · exact fun k hk => (congrFun hcells k).trans (hs.message k hk)
  · rw [hblkcnt, hcounted]
  · rw [hh, hs.digest, chainChunks]
  · rw [hu]; simp only [hlast]

/-- Before each core step of a chunk the machine is BUSY. -/
theorem State.ChunksFolded.run_busy {r : Nat} (hr : r < 66) :
    ∃ u, Host.Core.run Sys2Proof.core r s = .next u ∧ u.busy = true := by
  obtain ⟨w, hw, -⟩ := exists_loadedFile (length_messageChunk hb) (hs.chunkWord_eq hb)
  cases r with
  | zero => exact ⟨s, rfl, busy_iff.mpr (.inl (hs.loading hb))⟩
  | succ n =>
    refine ⟨_, run_load_afterRounds hs.unfaulted hs.quiet (hs.loading hb) hw (by omega), busy_iff.mpr (.inr ?_)⟩
    by_cases hn : n < 64
    · exact .inl (if_pos hn)
    · exact .inr (if_neg hn)

end

section
variable {s : State} {bytes : List Byte} (hs : s.ChunksFolded bytes 0)
include hs

/-- Chunk by chunk, 66 core steps each. -/
theorem State.ChunksFolded.run_chunks {b : Nat} (hb : b ≤ chunkCount bytes.length) :
    ∃ u, Host.Core.run Sys2Proof.core (66 * b) s = .next u ∧ u.ChunksFolded bytes b := by
  induction b with
  | zero => exact ⟨s, rfl, hs⟩
  | succ b ih =>
    obtain ⟨u, hrun, hu⟩ := ih (by omega)
    obtain ⟨u', hrun', hu'⟩ := hu.run_chunk hb
    exact ⟨u', (run_add_of_next hrun 66).trans hrun', hu'⟩

/-- The machine is BUSY before each of the job's core steps. -/
theorem State.ChunksFolded.busy_before {k : Nat} (hk : k < 66 * chunkCount bytes.length) :
    ∃ u, Host.Core.run Sys2Proof.core k s = .next u ∧ u.busy = true := by
  have hchunk : k / 66 < chunkCount bytes.length := by omega
  obtain ⟨u, hrun, hu⟩ := hs.run_chunks hchunk.le
  obtain ⟨u', hrun', hbusy⟩ := hu.run_busy hchunk (Nat.mod_lt k (by decide))
  have hall := (run_add_of_next hrun (k % 66)).trans hrun'
  rw [Nat.div_add_mod] at hall
  exact ⟨u', hall, hbusy⟩

/-- The job ends in DONE with Sum of the message in H (R289). -/
theorem State.ChunksFolded.run_job :
    ∃ u, Host.Core.run Sys2Proof.core (66 * chunkCount bytes.length) s = .next u ∧
      u.phase = phaseDone ∧ serialise u.h = sumBytes bytes := by
  obtain ⟨u, hrun, hu⟩ := hs.run_chunks (Nat.le_refl _)
  exact ⟨u, hrun, by rw [hu.phase, if_pos rfl], by rw [sumBytes_eq, hu.digest]⟩

end

/-- An accepted START starts the job on the message that LEN and MSG hold (spec/46_host_interface.md R321). -/
theorem jobStarted_of_start {s : State} (ie : Bool) {bytes : List Byte} (hf : s.fault = none) (hcap : s.CapacityLegal)
    (hlen : s.len = bytes.length) (hfits : bytes.length ≤ s.msgBytes.toNat) (hmessage : s.HoldsMessage bytes) :
    ((s.start ie).respond .okay 0#32).JobStarted bytes := by
  rw [start_accepted ie hcap.2.2 (hlen.trans_le hfits), hlen]
  exact ⟨hf, rfl, rfl, rfl, rfl, toNat_ofNat_chunkCount (hfits.trans hcap.2.2), hlen, hcap, hfits, hmessage⟩

/-- Settles O27: START starts the job, and its chunks run one after another. -/
theorem jobComputesSum : Obligations.JobComputesSum := by
  intro s ie bytes hf hnil hrest hcap hlen hfits hmessage
  have hstarted := jobStarted_of_start ie hf hcap hlen hfits hmessage
  have hquiet : ((s.start ie).respond .okay 0#32).inputs = [] := by
    rw [start_accepted ie hcap.2.2 (hlen.trans_le hfits)]
    exact hnil
  obtain ⟨u, hrun⟩ := (hstarted.chunksFolded hquiet).run_job
  exact ⟨_, u, execStart_of_not_busy ie (not_busy_of_resting hrest), hrun⟩

/-! ### Whether a request faults: the message memory and the capacity decide (spec/20_memory.md R87) -/

/-- A CTRL write answers in every state. -/
theorem ctrlDispatch_answers (wdata : Word) (s : State) : ∃ t, ctrlDispatch wdata s = .next t := by
  unfold ctrlDispatch
  split
  · exact ⟨_, execNop_eq _ s⟩
  · exact ⟨_, execStart_eq _ s⟩
  · exact ⟨_, execClear_eq _ s⟩
  all_goals exact ⟨_, rfl⟩

theorem execWr8_answers (addr wdata : Word) (s : State) : ∃ t, execWr8 addr wdata s = .next t := by
  unfold execWr8
  split <;> exact ⟨_, rfl⟩

theorem execWr32_answers (addr wdata : Word) (s : State) : ∃ t, execWr32 addr wdata s = .next t := by
  unfold execWr32
  split
  case h_2 => exact ctrlDispatch_answers wdata s
  all_goals exact ⟨_, rfl⟩

theorem execRsvdSize_answers (desc : BitVec 3) (addr wdata : Word) (s : State) :
    ∃ t, execRsvdSize desc addr wdata s = .next t := by
  unfold execRsvdSize
  split <;> exact ⟨_, rfl⟩

/-- A read whose value is missing only where another read's is answers where that one does not fault. -/
theorem readOutcome_answers {s s' : State} {value value' : Except Fault Word}
    (hvalue : ∀ f, value' = .error f → value = .error f) (h : ∀ f, readOutcome s value ≠ .fault f) :
    ∃ t, readOutcome s' value' = .next t := by
  cases value' with
  | ok x => exact ⟨_, rfl⟩
  | error f => exact absurd (congrArg (readOutcome s) (hvalue f rfl)) (h f)

section
variable {s s' : State} (hmsg : s'.msg = s.msg) (hcap : s'.msgBytes = s.msgBytes)
include hcap

theorem check_read_congr (size : BitVec 2) (addr wdata : Word) :
    check .read size addr wdata s' = check .read size addr wdata s := by
  simp only [check, hcap]

include hmsg

theorem viewByte_msg_congr (a : Nat) : viewByte s' .msg a = viewByte s .msg a := by
  rw [viewByte.eq_def, viewByte.eq_def, msgCell_congr hmsg hcap]

/-- Of the windows only MSG has bytes without a value (spec/46_host_interface.md R315). -/
theorem viewByte_error_congr {window : Window} {a : Nat} {f : Fault} (h : viewByte s' window a = .error f) :
    viewByte s window a = .error f := by
  cases window with
  | msg => rw [← h, viewByte_msg_congr hmsg hcap]
  | hreg | hex | bits => cases h

theorem viewWord_error_congr {window : Window} {a : Nat} {f : Fault} (h : viewWord s' window a = .error f) :
    viewWord s window a = .error f := by
  cases window with
  | msg => simpa only [viewWord, viewByte_msg_congr hmsg hcap] using h
  | hreg | hex | bits => cases h

theorem execRd8_answers {addr : Word} (h : ∀ f, execRd8 addr s ≠ .fault f) : ∃ t, execRd8 addr s' = .next t := by
  unfold execRd8 at h ⊢
  rw [check_read_congr hcap]
  split at h
  · exact ⟨_, rfl⟩
  · exact ⟨_, rfl⟩
  · next window _ =>
    refine readOutcome_answers (fun f hf => ?_) h
    cases hbyte : viewByte s' window addr.toNat with
    | ok b => simp [hbyte, Except.map] at hf
    | error g => rw [viewByte_error_congr hmsg hcap hbyte, ← hf, hbyte]

theorem execRd32_answers {addr : Word} (h : ∀ f, execRd32 addr s ≠ .fault f) : ∃ t, execRd32 addr s' = .next t := by
  unfold execRd32 at h ⊢
  rw [check_read_congr hcap]
  split at h
  · exact ⟨_, rfl⟩
  · exact ⟨_, rfl⟩
  · exact readOutcome_answers (fun _ hf => viewWord_error_congr hmsg hcap hf) h

/-- A host operation that does not fault in one state answers in every state with that message memory and capacity. -/
theorem exec_answers {i : Instr} (hi : i.interface ≠ .phase) (h : ∀ f, exec i s ≠ .fault f) :
    ∃ t, exec i s' = .next t := by
  cases i with
  | rd8 addr => exact execRd8_answers hmsg hcap h
  | rd32 addr => exact execRd32_answers hmsg hcap h
  | wr8 addr wdata => exact execWr8_answers addr wdata s'
  | wr32 addr wdata => exact execWr32_answers addr wdata s'
  | rsvdSize desc addr wdata => exact execRsvdSize_answers desc addr wdata s'
  | nop ie => exact ⟨_, execNop_eq ie s'⟩
  | start ie => exact ⟨_, execStart_eq ie s'⟩
  | clear ie => exact ⟨_, execClear_eq ie s'⟩
  | rsvdCmd3 | rsvdCmd4to7 | rsvdCmd8to15 => exact ⟨_, rfl⟩
  | idle | load | round | fold | done | error | rsvdPhase => exact absurd rfl hi

end

/-! ### A job with host transactions between its core steps -/

/-- The state with another IE and another host's side of the bus: what a request other than CLEAR writes while BUSY. -/
def State.withHostSide (s : State) (ie : Bool) (resp : Option Response) (inputs : List Event) : State :=
  { s with ie := ie, resp := resp, inputs := inputs }

/-- No micro-operation sees IE or the host's side. -/
theorem exec_withHostSide {i : Instr} {s t : State} (hi : i.interface = .phase) (h : exec i s = .next t) (ie : Bool)
    (resp : Option Response) (inputs : List Event) :
    exec i (s.withHostSide ie resp inputs) = .next (t.withHostSide ie resp inputs) := by
  cases i with
  | idle | round | fold | done | error => cases h; rfl
  | load =>
    rcases execLoad_cases s with ⟨w, hw, he⟩ | ⟨-, he⟩ <;> cases he.symm.trans h
    exact congrArg (loadOutcome (s.withHostSide ie resp inputs)) hw
  | rsvdPhase code => cases h
  | _ => cases hi

/-- A pending core step does what the core step of the state with no event pending does. -/
theorem step_withHostSide_clock {s t : State} (hnil : s.inputs = []) (h : step s = .next t) (ie : Bool)
    (resp : Option Response) (rest : List Event) :
    step (s.withHostSide ie resp (.clock :: rest)) = .next (t.withHostSide ie resp rest) := by
  have hf := step_next_unfaulted h
  rw [(coreStepRunsTheMicroOpOfPhase s hf).1 hnil] at h
  rw [(coreStepRunsTheMicroOpOfPhase (s.withHostSide ie resp (.clock :: rest)) hf).2 rest rfl]
  exact exec_withHostSide (microOp_interface s) h ie resp rest

theorem step_of_run_one {M : Host.Core} {s t : M.State} (h : M.run 1 s = .next t) : M.step s = .next t := by
  rw [Host.Core.run] at h
  split at h
  · next hs => rw [hs]; exact h
  · cases h
  · cases h

/-- `s.MidJob v`: in `v` no event is pending, and the message memory and the capacity are those of `s`. -/
structure State.MidJob (s v : State) : Prop where
  unfaulted : v.fault = none
  quiet : v.inputs = []
  message : v.msg = s.msg
  capacity : v.msgBytes = s.msgBytes

section
variable {s v : State} (hv : s.MidJob v)
include hv

/-- A core step writes neither the message memory nor the capacity. -/
theorem State.MidJob.of_step {v' : State} (h : step v = .next v') : s.MidJob v' := by
  rw [(coreStepRunsTheMicroOpOfPhase v hv.unfaulted).1 hv.quiet] at h
  obtain ⟨hf, hcap, hinputs⟩ := (exec_effect h).frame
  have hmsg : v'.msg = v.msg := by
    rcases exec_msg h with hmsg | ⟨addr, wdata, hi, -⟩ | ⟨addr, wdata, hi, -⟩
    · exact hmsg
    all_goals exact nomatch (congrArg Instr.interface hi).symm.trans (microOp_interface v)
  exact ⟨hf.trans hv.unfaulted, hinputs.trans hv.quiet, hmsg.trans hv.message, hcap.trans hv.capacity⟩

/-- An undisturbing request that meets a running job writes IE and the response port at most (R289). -/
theorem State.MidJob.step_request (hb : v.busy = true) {q : Request} (hq : s.Undisturbing (.request q)) (ie : Bool)
    (resp : Option Response) (rest : List Event) :
    ∃ ie' resp', step (v.withHostSide ie resp (.request q :: rest)) = .next (v.withHostSide ie' resp' rest) := by
  obtain ⟨hclear, hreads⟩ := hq
  have hstep : step (v.withHostSide ie resp (.request q :: rest)) =
      exec (requestInstr q) (v.withHostSide ie resp rest) :=
    step_of_request (s := v.withHostSide ie resp (.request q :: rest)) hv.unfaulted rfl
  obtain ⟨t, ht⟩ := exec_answers (s' := v.withHostSide ie resp rest) hv.message hv.capacity
    (requestInstr_interface q) hreads
  rw [hstep, ht]
  have hcases := exec_next_of_busy (s := v.withHostSide ie resp rest) hb (requestInstr_interface q) ht
  rw [performed_requestInstr] at hcases
  rcases hcases with ⟨r, x, rfl⟩ | ⟨ie', -, rfl⟩ | ⟨ie', hcl⟩
  · exact ⟨ie, some ⟨r, x⟩, rfl⟩
  · exact ⟨ie', some ⟨.okay, 0#32⟩, rfl⟩
  · exact absurd hcl (hclear ie')

end

/-- A run over undisturbing events is the run of their core steps alone, up to IE and the host's side, as long as the
machine is BUSY before and after each of those core steps. -/
theorem run_undisturbed {s v : State} {events : List Event} (hv : s.MidJob v)
    (hevents : ∀ e ∈ events, s.Undisturbing e)
    (hbusy : ∀ k, k ≤ events.count .clock → ∃ t, Host.Core.run Sys2Proof.core k v = .next t ∧ t.busy = true)
    (ie : Bool) (resp : Option Response) (rest : List Event) :
    ∃ t ie' resp', s.MidJob t ∧ Host.Core.run Sys2Proof.core (events.count .clock) v = .next t ∧
      Host.Core.run Sys2Proof.core events.length (v.withHostSide ie resp (events ++ rest)) =
        .next (t.withHostSide ie' resp' rest) := by
  induction events generalizing v ie resp with
  | nil => exact ⟨v, ie, resp, hv, rfl, rfl⟩
  | cons e events ih =>
    obtain ⟨he, hrest⟩ := List.forall_mem_cons.mp hevents
    cases e with
    | clock =>
      rw [List.count_cons_self] at hbusy ⊢
      obtain ⟨v', hstep⟩ : ∃ v', step v = .next v' := by
        obtain ⟨v', hrun, -⟩ := hbusy 1 (by omega)
        exact ⟨v', step_of_run_one hrun⟩
      have hpending := step_withHostSide_clock hv.quiet hstep ie resp (events ++ rest)
      obtain ⟨t, ie', resp', ht, hclean, hrun⟩ := ih (hv.of_step hstep) hrest (fun k hk => by
        rw [← run_succ_of_next (M := Sys2Proof.core) hstep]
        exact hbusy (k + 1) (by omega)) ie resp
      exact ⟨t, ie', resp', ht, (run_succ_of_next (M := Sys2Proof.core) hstep _).trans hclean,
        (run_succ_of_next (M := Sys2Proof.core) hpending _).trans hrun⟩
    | request q =>
      rw [List.count_cons_of_ne (by simp)] at hbusy ⊢
      have hb : v.busy = true := by
        obtain ⟨t, ht, hb⟩ := hbusy 0 (by omega)
        cases ht
        exact hb
      obtain ⟨ie₁, resp₁, hpending⟩ := hv.step_request hb he ie resp (events ++ rest)
      obtain ⟨t, ie', resp', ht, hclean, hrun⟩ := ih hv hrest hbusy ie₁ resp₁
      exact ⟨t, ie', resp', ht, hclean, (run_succ_of_next (M := Sys2Proof.core) hpending _).trans hrun⟩
    | reset => exact he.elim

/-- Settles O28: all but the last core step run as if alone, the machine being BUSY before each, and the last one ends the
job. -/
theorem interleavedJobComputesSum : Obligations.InterleavedJobComputesSum := by
  intro s bytes events hs hevents hcount
  have hjob := (hs.withInputs []).chunksFolded rfl
  obtain ⟨t, ie, resp, ht, halone, hrun⟩ :=
    run_undisturbed (s := s) (v := { s with inputs := [] }) ⟨hs.unfaulted, rfl, rfl, rfl⟩ hevents
      (fun k hk => hjob.busy_before (by omega)) s.ie s.resp [.clock]
  obtain ⟨u, hends, hdone, hsum⟩ := hjob.run_job
  rw [← hcount, run_add_of_next halone] at hends
  have hlast := step_withHostSide_clock ht.quiet (step_of_run_one hends) ie resp []
  exact ⟨State.withHostSide u ie resp [], (run_add_of_next hrun 1).trans (run_succ_of_next hlast 0), hdone, hsum⟩

end Sys2Proof.Machine
end

section
/-! The host interface (spec/46_host_interface.md): Check as tests over the numeric address map, what a refused
transaction leaves, the register accesses, the commands of a CTRL write, and the message cells that LOAD never reads. -/

namespace Sys2Proof.Machine

/-! ### The address map as ranges (spec/20_memory.md R81) -/

/-- The host address of a register. -/
def Reg.addr : Reg → Nat
  | .ctrl => 0x00
  | .status => 0x04
  | .lenHi => 0x08
  | .lenLo => 0x0C
  | .nblk => 0x10
  | .blkcnt => 0x14
  | .msgsz => 0x18

/-- The only aligned address of a register's four bytes is its own. -/
theorem eq_addr_of_regAt {a : Nat} {r : Reg} (h : regAt a = some r) (h4 : a % 4 = 0) : a = r.addr := by
  unfold regAt at h
  split at h <;> cases h
  all_goals
    simp only [Reg.addr]
    omega

theorem windowAt_eq_none {n a : Nat} :
    windowAt n a = none ↔
      ¬((0x20 ≤ a ∧ a ≤ 0x3F) ∨ (0x100 ≤ a ∧ a ≤ 0x13F) ∨ (0x200 ≤ a ∧ a ≤ 0x2FF) ∨
        (0x8000_0000 ≤ a ∧ a < 0x8000_0000 + n)) := by
  unfold windowAt hregBase hexBase bitsBase msgBase
  split_ifs <;> simp only [false_iff, true_iff] <;> omega

/-- Every window but MSG lies between 0x20 and 0x2FF. -/
theorem windowAt_digest {n a : Nat} {v : Window} (h : windowAt n a = some v) (hv : v ≠ .msg) :
    0x20 ≤ a ∧ a ≤ 0x2FF := by
  unfold windowAt hregBase hexBase bitsBase at h
  split_ifs at h <;> cases h
  iterate 3 · omega
  exact absurd rfl hv

theorem regionOf_eq_none {s : State} {addr : Word} : regionOf s.msgBytes addr = none ↔ s.Unmapped addr.toNat := by
  unfold regionOf
  split
  · next r hr =>
    obtain ⟨hlow, -⟩ := regAt_eq_some hr
    simp only [reduceCtorEq, false_iff, State.Unmapped]
    omega
  · next hr =>
    have hhigh := regAt_eq_none.mp hr
    rw [Option.map_eq_none_iff, windowAt_eq_none, State.Unmapped]
    omega

theorem isReg_iff {n addr : Word} {g : Region} (hg : regionOf n addr = some g) :
    g.isReg = true ↔ addr.toNat ≤ 0x1B := by
  cases g with
  | reg r =>
    obtain ⟨hlow, -⟩ := regAt_eq_some (regionOf_reg.mp hg)
    exact iff_of_true rfl (by omega)
  | window v =>
    obtain ⟨hhigh, -⟩ := regionOf_window.mp hg
    exact iff_of_false Bool.false_ne_true (by omega)

/-! ### Check (R314) -/

theorem toNat_cmdField (wdata : Word) : (cmdField wdata).toNat = wdata.toNat % 16 := by
  simp [cmdField]

/-- Tests 5c and 5d by the number of the command. -/
theorem commandRefusal_getD (cmd : BitVec 4) (busy : Bool) :
    (commandRefusal cmd busy).getD .okay =
      if cmd.toNat = 1 ∧ busy = true then .errBusy else if 3 ≤ cmd.toNat then .errCmd else .okay := by
  have hstart : cmd = 0x1#4 ↔ cmd.toNat = 1 := by bv_omega
  simp only [commandRefusal, hstart]
  split_ifs <;> rfl

/-- Tests 5a to 5d by address: a register's writes are told apart by its own address, the windows by their ranges. -/
theorem writeRefusal_getD {n addr : Word} {g : Region} (hg : regionOf n addr = some g)
    (h4 : g.isReg = true → addr.toNat % 4 = 0) (wdata : Word) (busy : Bool) :
    (writeRefusal g wdata busy).getD .okay =
      (let a := addr.toNat
       let cmd := wdata.toNat % 16
       if a = 0x04 ∨ a = 0x10 ∨ a = 0x14 ∨ a = 0x18 ∨ (0x20 ≤ a ∧ a ≤ 0x2FF) then .errReadonly
       else if busy = true ∧ (0x8000_0000 ≤ a ∨ a = 0x08 ∨ a = 0x0C) then .errBusy
       else if a = 0x00 ∧ cmd = 1 ∧ busy = true then .errBusy
       else if a = 0x00 ∧ 3 ≤ cmd then .errCmd
       else .okay) := by
  cases g with
  | reg r =>
    have ha := eq_addr_of_regAt (regionOf_reg.mp hg) (h4 rfl)
    cases r with
    | ctrl => simp [writeRefusal, ha, Reg.addr, commandRefusal_getD, toNat_cmdField]
    | lenHi | lenLo => cases busy <;> simp [writeRefusal, ha, Reg.addr]
    | status | nblk | blkcnt | msgsz => simp [writeRefusal, ha, Reg.addr]
  | window v =>
    obtain ⟨-, hv⟩ := regionOf_window.mp hg
    cases v with
    | msg =>
      obtain ⟨hbase, -⟩ := windowAt_msg hv
      unfold msgBase at hbase
      have hnot : ¬(addr.toNat = 0x04 ∨ addr.toNat = 0x10 ∨ addr.toNat = 0x14 ∨ addr.toNat = 0x18 ∨
        (0x20 ≤ addr.toNat ∧ addr.toNat ≤ 0x2FF)) := by omega
      have hctrl : addr.toNat ≠ 0x00 := by omega
      simp only [if_neg hnot, hctrl, hbase, writeRefusal]
      cases busy <;> simp
    | hreg | hex | bits =>
      obtain ⟨hlow, hhigh⟩ := windowAt_digest hv (by decide)
      simp [writeRefusal, hlow, hhigh]

section
variable {size : BitVec 2} {addr : Word} {s : State} (access : Access) (wdata : Word)

/-- Test 1. -/
theorem checkResp_of_bad_size (hsize : accessBytes size ≠ 1 ∧ accessBytes size ≠ 4) :
    checkResp access size addr wdata s = .errSize := by
  simp only [checkResp, check, if_pos hsize]

variable (hsize : ¬(accessBytes size ≠ 1 ∧ accessBytes size ≠ 4))
include hsize

/-- Test 2. -/
theorem checkResp_of_misaligned (halign : accessBytes size = 4 ∧ addr.toNat % 4 ≠ 0) :
    checkResp access size addr wdata s = .errAlign := by
  simp only [checkResp, check, if_neg hsize, if_pos halign]

variable (halign : ¬(accessBytes size = 4 ∧ addr.toNat % 4 ≠ 0))
include halign

/-- Test 3. -/
theorem checkResp_of_unmapped (hg : regionOf s.msgBytes addr = none) :
    checkResp access size addr wdata s = .errUnmapped := by
  simp only [checkResp, check, if_neg hsize, if_neg halign, hg]

variable {g : Region} (hg : regionOf s.msgBytes addr = some g)
include hg

/-- Test 4. -/
theorem checkResp_of_reg_byte (hreg : g.isReg = true ∧ accessBytes size = 1) :
    checkResp access size addr wdata s = .errSize := by
  simp only [checkResp, check, if_neg hsize, if_neg halign, hg, if_pos hreg]

/-- Past tests 1 to 4 a read is accepted, and a write by tests 5a to 5d. -/
theorem checkResp_of_mapped (hreg : ¬(g.isReg = true ∧ accessBytes size = 1)) :
    checkResp access size addr wdata s =
      if access = .write then (writeRefusal g wdata s.busy).getD .okay else .okay := by
  simp only [checkResp, check, if_neg hsize, if_neg halign, hg, if_neg hreg]
  cases access with
  | read => rfl
  | write => cases writeRefusal g wdata s.busy <;> rfl

end

theorem check_of_refused {access : Access} {size : BitVec 2} {addr wdata : Word} {s : State}
    (h : checkResp access size addr wdata s ≠ .okay) :
    check access size addr wdata s = .error (checkResp access size addr wdata s) := by
  unfold checkResp at h ⊢
  split
  · next hok => simp [hok] at h
  · next r hr => exact hr

/-- Settles O37: test by test for Check's answer, and for each transaction by its first arm, which takes every
refusal. -/
theorem checkAnswersTheFirstFailingTest : Obligations.CheckAnswersTheFirstFailingTest := by
  refine ⟨fun s access size addr wdata => ?_, fun s addr h => ?_, fun s addr h => ?_, fun s addr wdata h => ?_,
    fun s addr wdata h => ?_, fun s desc addr wdata h => execRsvdSize_eq h addr wdata s⟩
  · have hbytes : 2 ^ size.toNat = accessBytes size := rfl
    have hbusy : (s.phase = 1#3 ∨ s.phase = 2#3 ∨ s.phase = 3#3) ↔ s.busy = true := busy_iff.symm
    simp only [hbytes, hbusy]
    by_cases hsize : accessBytes size ≠ 1 ∧ accessBytes size ≠ 4
    · rw [if_pos hsize, checkResp_of_bad_size access wdata hsize]
    by_cases halign : accessBytes size = 4 ∧ addr.toNat % 4 ≠ 0
    · rw [if_neg hsize, if_pos halign, checkResp_of_misaligned access wdata hsize halign]
    rw [if_neg hsize, if_neg halign]
    cases hg : regionOf s.msgBytes addr with
    | none => rw [if_pos (regionOf_eq_none.mp hg), checkResp_of_unmapped access wdata hsize halign hg]
    | some g =>
      have hmapped : ¬s.Unmapped addr.toNat := fun hu => by simp [regionOf_eq_none.mpr hu] at hg
      simp only [if_neg hmapped, ← isReg_iff hg]
      by_cases hreg : g.isReg = true ∧ accessBytes size = 1
      · rw [if_pos hreg, checkResp_of_reg_byte access wdata hsize halign hg hreg]
      rw [if_neg hreg, checkResp_of_mapped access wdata hsize halign hg hreg]
      cases access with
      | read => simp
      | write =>
        have h4 : g.isReg = true → addr.toNat % 4 = 0 := fun hr => by
          have hone : accessBytes size ≠ 1 := fun hn => hreg ⟨hr, hn⟩
          omega
        simpa using writeRefusal_getD hg h4 wdata s.busy
  · rw [exec, execRd8, check_of_refused h]; rfl
  · rw [exec, execRd32, check_of_refused h]; rfl
  · rw [exec, execWr8, check_of_refused h]; rfl
  · rw [exec, execWr32, check_of_refused h]; rfl

/-! ### Register accesses (R310, R312, R315, R317) -/

/-- CTRL reads as `IE << 8` (spec/10_state.md R46). -/
theorem ctrlValue_eq (s : State) : s.ctrlValue = if s.ie then 0x0000_0100#32 else 0#32 := by
  rw [State.ctrlValue]
  cases s.ie <;> rfl

/-- Settles O39: the register at each address, and CTRL's word by its one bit. -/
theorem registerReadsReturnTheirValues : Obligations.RegisterReadsReturnTheirValues := by
  intro s
  have hread : ∀ (addr : Word) (r : Reg), regAt addr.toNat = some r → addr.toNat % 4 = 0 →
      exec (.rd32 addr) s = .next { s with resp := some ⟨.okay, regValue s r⟩ } := fun _ _ => execRd32_reg s
  refine ⟨?_, hread _ .status rfl rfl, hread _ .lenHi rfl rfl, hread _ .lenLo rfl rfl, hread _ .nblk rfl rfl,
    hread _ .blkcnt rfl rfl, hread _ .msgsz rfl rfl⟩
  rw [← ctrlValue_eq]
  exact hread _ .ctrl rfl rfl

/-- A 4-byte write to a half of LEN while not BUSY passes Check (R314). -/
theorem check_write_len {addr : Word} {r : Reg} {s : State} (hr : regAt addr.toNat = some r) (h4 : addr.toNat % 4 = 0)
    (hlen : r = .lenHi ∨ r = .lenLo) (hb : s.busy = false) (wdata : Word) :
    check .write 2#2 addr wdata s = .ok (.reg r) := by
  have hrefusal : writeRefusal (.reg r) wdata s.busy = none := by rcases hlen with rfl | rfl <;> simp [writeRefusal, hb]
  simp [check, h4, regionOf_reg.mpr hr, hrefusal]

/-- Settles O50: Check passes the write, which stores its data. -/
theorem lengthWritesStoreTheirHalf : Obligations.LengthWritesStoreTheirHalf := by
  refine fun s wdata hb => ⟨?_, ?_⟩
  · rw [exec, execWr32, check_write_len (r := .lenHi) rfl rfl (.inl rfl) hb]; rfl
  · rw [exec, execWr32, check_write_len (r := .lenLo) rfl rfl (.inr rfl) hb]; rfl

/-! ### Commands (R316, R320 to R323) -/

/-- Settles O52: NOP passes Check in every PHASE and writes IE. -/
theorem nopSetsInterruptEnableOnly : Obligations.NopSetsInterruptEnableOnly := fun s ie => execNop_eq ie s

/-- Settles O55: CLEAR passes Check in every PHASE, and its writes are the listed ones. -/
theorem clearZeroesTheJobAndKeepsTheMessage : Obligations.ClearZeroesTheJobAndKeepsTheMessage :=
  fun s ie => execClear_eq ie s

theorem execWr32_ctrl_accepted {wdata : Word} {s : State} (h : commandRefusal (cmdField wdata) s.busy = none) :
    execWr32 ctrlAddr wdata s = ctrlDispatch wdata s := by
  rw [execWr32, check_ctrl_accepted h]

theorem execWr32_ctrl_refused {wdata : Word} {s : State} {r : Resp}
    (h : commandRefusal (cmdField wdata) s.busy = some r) : execWr32 ctrlAddr wdata s = .next (s.respond r 0#32) := by
  rw [execWr32, check_ctrl_refused h]

/-- Settles O56: the three constructors only answer, and a CTRL write with such a command fails test 5d. -/
theorem reservedCommandsAreRefused : Obligations.ReservedCommandsAreRefused := by
  refine ⟨fun s ie => ⟨rfl, fun _ _ _ => rfl, fun _ _ => rfl⟩, fun s wdata h => ?_⟩
  rw [← toNat_cmdField] at h
  exact execWr32_ctrl_refused (commandRefusal_reserved s.busy h)

/-- The dispatch of R316 runs the decoded command. -/
theorem ctrlDispatch_eq_exec (wdata : Word) (s : State) : ctrlDispatch wdata s = exec (decodeCommand wdata) s := by
  rcases decodeCommand_cases wdata with ⟨-, hd⟩ | ⟨-, hd⟩ | ⟨-, hd⟩ | ⟨-, hd | hd | hd⟩ <;>
    rw [ctrlDispatch, hd] <;> rfl

/-- A command that test 5c or 5d refuses only answers, whichever constructor it decodes to. -/
theorem exec_decodeCommand_refused {wdata : Word} {s : State} {r : Resp}
    (h : commandRefusal (cmdField wdata) s.busy = some r) :
    exec (decodeCommand wdata) s = .next (s.respond r 0#32) := by
  rcases decodeCommand_cases wdata with ⟨hc, -⟩ | ⟨hc, hd⟩ | ⟨hc, -⟩ | ⟨hc, hd⟩
  · simp [hc] at h
  · rw [hc] at h
    rw [hd, exec, execStart, commandWrite, h]
  · simp [hc] at h
  · cases (commandRefusal_reserved s.busy hc).symm.trans h
    rcases hd with hd | hd | hd <;> rw [hd] <;> rfl

/-- Settles O51: by whether Check refuses the command. -/
theorem ctrlWriteIsItsCommand : Obligations.CtrlWriteIsItsCommand := by
  intro s wdata
  cases h : commandRefusal (cmdField wdata) s.busy with
  | some r => exact (execWr32_ctrl_refused h).trans (exec_decodeCommand_refused h).symm
  | none => exact (execWr32_ctrl_accepted h).trans (ctrlDispatch_eq_exec wdata s)

/-- Settles O53: Check refuses START while BUSY, and R321's three branches are those of `State.start`. -/
theorem startSeedsOrRejectsTheJob : Obligations.StartSeedsOrRejectsTheJob := by
  refine fun s ie => ⟨fun hbusy => ?_, fun hrest => ?_⟩
  · rw [exec, execStart_eq, if_pos (busy_iff.mpr hbusy)]; rfl
  · intro L zeroed
    rw [exec, execStart_of_not_busy ie (not_busy_of_resting hrest)]
    rcases start_cases s ie with ⟨hbig, h⟩ | ⟨hbound, hover, h⟩ | ⟨hbound, hfits, h⟩ <;> rw [h]
    · rw [if_pos (show 2 ^ 61 ≤ L from hbig)]; rfl
    · rw [if_neg (show ¬2 ^ 61 ≤ L from Nat.not_le.mpr hbound), if_pos (show s.msgBytes.toNat < L from hover)]; rfl
    · rw [if_neg (show ¬2 ^ 61 ≤ L from Nat.not_le.mpr hbound),
        if_neg (show ¬s.msgBytes.toNat < L from Nat.not_lt.mpr hfits)]
      rfl

/-! ### Message cells at or beyond L (R318) -/

/-- LOAD's words read cells below L only. -/
theorem loadedFile_withMsg {s : State} {m : Memory}
    (h : ∀ k, k < s.len → ({ s with msg := m } : State).msgCell k = s.msgCell k) :
    ({ s with msg := m } : State).loadedFile = s.loadedFile := by
  have hwords : chunkWord ({ s with msg := m } : State).msgCell s.len s.nblk.toNat s.blkcnt.toNat =
      chunkWord s.msgCell s.len s.nblk.toNat s.blkcnt.toNat := funext (chunkWord_congr h _)
  exact congrArg (loadWords · 16 0 s.w) hwords

/-- Settles O33: the two memories give LOAD the same words, or miss one alike. -/
theorem cellsPastTheLengthDoNotReachLoad : Obligations.CellsPastTheLengthDoNotReachLoad := by
  intro s m h
  have hload : exec .load { s with msg := m } = loadOutcome { s with msg := m } s.loadedFile :=
    congrArg (loadOutcome _) (loadedFile_withMsg h)
  rw [hload]
  rcases execLoad_cases s with ⟨w, hw, hexec⟩ | ⟨hnone, hexec⟩
  · rw [hw]
    refine ⟨fun t ht => ?_, fun f hf => ?_⟩
    · cases hexec.symm.trans ht; rfl
    · cases hexec.symm.trans hf
  · rw [hnone]
    refine ⟨fun t ht => ?_, fun f hf => ?_⟩
    · cases hexec.symm.trans ht
    · cases hexec.symm.trans hf; rfl

end Sys2Proof.Machine
end

section
/-! Reset and the hazards (spec/70_reset_and_hazards.md): the state the reset event leaves, and where a job stands after each
of its core steps. -/

namespace Sys2Proof.Machine

/-! ### The reset event (R390) -/

/-- A pending reset is taken off and happens. -/
theorem step_of_reset {s : State} {rest : List Event} (hf : s.fault = none) (hcons : s.inputs = .reset :: rest) :
    step s = .next { s with inputs := rest }.resetEvent := by
  rw [step, hf, nextEvent_of_cons hcons, ← State.pop_of_inputs_cons hcons]

/-- The reset event leaves no message cell written. -/
@[simp] theorem State.resetEvent_msgCell (s : State) (k : Nat) : s.resetEvent.msgCell k = none := ite_self _

@[simp] theorem State.resetEvent_status (s : State) : s.resetEvent.status = 0#32 := by
  simp only [State.status, State.irq, State.isError, State.isDone, State.busy, State.resetEvent_t,
    State.resetEvent_errcode, State.resetEvent_phase, State.resetEvent_ie]
  decide

@[simp] theorem State.resetEvent_ctrlValue (s : State) : s.resetEvent.ctrlValue = 0#32 := by
  rw [ctrlValue_eq, State.resetEvent_ie, if_neg Bool.false_ne_true]

/-- Settles O9: the fields are those `State.resetEvent` writes, and STATUS, CTRL and irq show zeros of them. -/
theorem resetEventSetsTheListedValues : Obligations.ResetEventSetsTheListedValues :=
  fun _ _ hf hcons => ⟨_, step_of_reset hf hcons, rfl, State.resetEvent_msgCell _, State.resetEvent_status _,
    State.resetEvent_ctrlValue _, rfl⟩

/-! ### Where a job stands after each core step (R402) -/

/-- What R402 lists for step `r` of chunk `b` of a job of `chunks` chunks, once that step is done. -/
def State.StepDone (u : State) (chunks b r : Nat) : Prop :=
  if r ≤ 63 then u.phase = phaseRound ∧ u.t.toNat = r ∧ u.blkcnt.toNat = b
  else if r = 64 then u.phase = phaseFold ∧ u.t = 63#6 ∧ u.blkcnt.toNat = b
  else u.blkcnt.toNat = b + 1 ∧ u.t = 0#6 ∧ u.phase = if b + 1 = chunks then phaseDone else phaseLoad

/-- After LOAD and `r` rounds of chunk `b` the machine stands in ROUND at t = r, or in FOLD once all 64 are done. -/
theorem State.stepDone_afterRounds {s : State} {chunks b r : Nat} (hp : s.phase = phaseRound)
    (hcounted : s.blkcnt.toNat = b) (hr : r ≤ 64) : (s.afterRounds r).StepDone chunks b r := by
  by_cases hround : r ≤ 63
  · have hphase : (s.afterRounds r).phase = phaseRound := (if_pos (by omega)).trans hp
    have ht : (s.afterRounds r).t.toNat = r := by
      rw [State.afterRounds, min_eq_left hround]
      exact Nat.mod_eq_of_lt (by omega)
    rw [State.StepDone, if_pos hround]
    exact ⟨hphase, ht, hcounted⟩
  · have hphase : (s.afterRounds r).phase = phaseFold := if_neg (by omega)
    have ht : (s.afterRounds r).t = 63#6 := by rw [State.afterRounds, min_eq_right (by omega)]
    rw [State.StepDone, if_neg hround, if_pos (by omega)]
    exact ⟨hphase, ht, hcounted⟩

/-- Where the 66 core steps of chunk `b` bring the machine, one by one: LOAD, 64 rounds, FOLD. -/
theorem State.ChunksFolded.run_stepDone {s : State} {bytes : List Byte} {b r : Nat} (hs : s.ChunksFolded bytes b)
    (hb : b < chunkCount bytes.length) (hr : r < 66) :
    ∃ u, Host.Core.run Sys2Proof.core (r + 1) s = .next u ∧ u.StepDone (chunkCount bytes.length) b r := by
  obtain ⟨w, hw, -⟩ := exists_loadedFile (length_messageChunk hb) (hs.chunkWord_eq hb)
  obtain hround | rfl : r ≤ 64 ∨ r = 65 := by omega
  · exact ⟨_, run_load_afterRounds hs.unfaulted hs.quiet (hs.loading hb) hw hround,
      State.stepDone_afterRounds rfl hs.counted hround⟩
  · obtain ⟨u, hrun, hu⟩ := hs.run_chunk hb
    have hfold : ((s.loaded w).afterRounds 64).folded = u :=
      Host.Outcome.next.inj ((Sys2Proof.Machine.run_chunk hs.unfaulted hs.quiet (hs.loading hb) hw).symm.trans hrun)
    have ht : u.t = 0#6 := by rw [← hfold]; rfl
    exact ⟨u, hrun, hu.counted, ht, hu.phase⟩

/-- Settles O29: `b` whole chunks, then the steps of chunk `b` up to step `r`. -/
theorem jobProgressAfterEachStep : Obligations.JobProgressAfterEachStep := by
  intro s bytes k hs hnil hpos hk
  have hchunk : (k - 1) / 66 < chunkCount bytes.length := by omega
  obtain ⟨u, hrun, hu⟩ := (hs.chunksFolded hnil).run_chunks hchunk.le
  obtain ⟨u', hrun', hdone⟩ := hu.run_stepDone hchunk (Nat.mod_lt (k - 1) (by decide))
  have hsteps : 66 * ((k - 1) / 66) + ((k - 1) % 66 + 1) = k := by omega
  refine ⟨u', ?_, hdone⟩
  rw [← hsteps]
  exact (run_add_of_next hrun _).trans hrun'

end Sys2Proof.Machine
end
